-- ==== Sys2Proof/Word.lean ====
section
/-! DEFINITION. The words of the CE-5540: register patterns, register addresses and host transactions. -/

namespace Sys2Proof

/-- A 16-bit register pattern (`00_scope.md` R6, R8). -/
abbrev Word := BitVec 16

/-- A 4-bit word address of the register space (`20_memory.md` R51). -/
abbrev Addr := BitVec 4

/-- One host transaction in format BUS, 21 bits (`30_encoding.md` R71). -/
abbrev BusItem := BitVec 21

/-- One byte of a byte-wide link (`20_memory.md` R52). -/
abbrev Byte := BitVec 8

end Sys2Proof
end

