-- ==== Sys2Proof/Syntax.lean ====
section
/-! DEFINITION. The syntax of the CE-5540: registers, commands, instructions, encoded items and the assembler's notation. -/

namespace Sys2Proof

/-- The sixteen registers of the register map (`10_state.md` R31), in address order. -/
inductive Reg where
  | cmd | status | w0 | w1 | w2 | w3 | d1 | d2 | resHi | resLo | c1 | c2 | c3 | c4 | c5 | c6
  deriving DecidableEq, Repr

/-- CompensationMode (`30_encoding.md` R73): the MODE bit of a command, 0 Disabled, 1 Enabled. -/
inductive Mode where
  | disabled | enabled
  deriving DecidableEq, Repr

/-- What a legal command word spells (`30_encoding.md` R74). -/
inductive Command where
  | loadcal
  | temp (m : Mode)
  | pres (m : Mode)
  deriving DecidableEq, Repr

/-- One constructor per row of `opcode_table.json`: the two BUS rows and the three CMD rows.
A CMD row stands for the transaction that carries its word, a write of it to CMD (the table's "carrier"). -/
inductive Instr where
  | rd (r : Reg)
  | wr (r : Reg) (v : Word)
  | loadcal
  | temp (m : Mode)
  | pres (m : Mode)
  deriving DecidableEq, Repr

/-- The instruction of a command. -/
def Command.toInstr : Command → Instr
  | .loadcal => .loadcal
  | .temp m => .temp m
  | .pres m => .pres m

/-- An encoded item of one of the two formats; a decoder knows the format, and with it the length, of every
item (`30_encoding.md` R70). -/
inductive Encoded where
  | bus (b : BusItem)
  | cmd (v : Word)
  deriving DecidableEq, Repr

/-- Why a command word spells nothing: the three classes of `30_encoding.md` R76. -/
inductive DecodeError where
  /-- (c) a bit among 15:5 is set -/
  | reservedBits
  /-- (b) OP = 0x1 with MODE = 1 -/
  | loadcalWithMode
  /-- (a) OP = 0x0 or 0x4 to 0xF -/
  | illegalOp
  deriving DecidableEq, Repr

/-- A register operand of a host program: a name, or a number that is its address (`30_encoding.md` R81). -/
inductive RegOperand where
  | name (r : Reg)
  | number (n : Nat)
  deriving DecidableEq, Repr

/-- One line of a host program with its immediates as written: the two items of `30_encoding.md` R81 and the
pseudo-instructions of R82. -/
inductive AsmLine where
  | rd (r : RegOperand)
  | wr (r : RegOperand) (imm : Int)
  | loadcal
  | temp (m : Mode)
  | pres (m : Mode)
  | cal (a b c d : Int)
  | mtemp (m : Mode) (t : Int)
  | mpres (m : Mode) (p t : Int)
  | rdres
  deriving DecidableEq, Repr

/-- Why a line of text is no line of a host program. -/
inductive AsmError where
  | unknownMnemonic
  | badOperands
  /-- a register name or number that `30_encoding.md` R81 does not list -/
  | badRegister
  /-- a token that is no decimal or hexadecimal literal -/
  | badNumber
  /-- an immediate outside the ranges of `30_encoding.md` R81, or a register number above 15 -/
  | outOfRange
  deriving DecidableEq, Repr

end Sys2Proof
end

