-- ==== Sys2Proof/Decode.lean ====
section
/-! DEFINITION. Decoding and encoding of the two formats, BUS and CMD (`30_encoding.md`). -/

namespace Sys2Proof

/-- The register at a word address (`10_state.md` R31); every address is a register. -/
def Reg.ofAddr (a : Addr) : Reg :=
  match a.toNat with
  | 0 => .cmd
  | 1 => .status
  | 2 => .w0
  | 3 => .w1
  | 4 => .w2
  | 5 => .w3
  | 6 => .d1
  | 7 => .d2
  | 8 => .resHi
  | 9 => .resLo
  | 10 => .c1
  | 11 => .c2
  | 12 => .c3
  | 13 => .c4
  | 14 => .c5
  | _ => .c6  -- 0xF, the one address left

/-- The word address of a register (`10_state.md` R31). -/
def Reg.addr : Reg → Addr
  | .cmd => 0x0
  | .status => 0x1
  | .w0 => 0x2
  | .w1 => 0x3
  | .w2 => 0x4
  | .w3 => 0x5
  | .d1 => 0x6
  | .d2 => 0x7
  | .resHi => 0x8
  | .resLo => 0x9
  | .c1 => 0xA
  | .c2 => 0xB
  | .c3 => 0xC
  | .c4 => 0xD
  | .c5 => 0xE
  | .c6 => 0xF

/-- The MODE bit's value as a mode (`30_encoding.md` R73). -/
def Mode.ofBit (b : Bool) : Mode := if b then .enabled else .disabled

/-- The MODE bit (`30_encoding.md` R73). -/
def Mode.bit : Mode → BitVec 1
  | .disabled => 0
  | .enabled => 1

/-- BUS field WE, bit 20 (`30_encoding.md` R71). -/
def busWE (b : BusItem) : Bool := b.getLsbD 20

/-- BUS field A, bits 19:16 (`30_encoding.md` R71). -/
def busA (b : BusItem) : Addr := b.extractLsb' 16 4

/-- BUS field DATA, bits 15:0 (`30_encoding.md` R71). -/
def busDATA (b : BusItem) : Word := b.extractLsb' 0 16

/-- CMD field OP, bits 3:0 (`30_encoding.md` R73). -/
def cmdOP (v : Word) : BitVec 4 := v.extractLsb' 0 4

/-- CMD field MODE, bit 4 (`30_encoding.md` R73). -/
def cmdMODE (v : Word) : Bool := v.getLsbD 4

/-- CMD field RSV, bits 15:5 (`30_encoding.md` R73). -/
def cmdRSV (v : Word) : BitVec 11 := v.extractLsb' 5 11

/-- BUS decoding, total (`30_encoding.md` R72): WE = 0 is RD whatever DATA holds, WE = 1 is WR. -/
def decodeBus (b : BusItem) : Instr :=
  if busWE b then .wr (Reg.ofAddr (busA b)) (busDATA b) else .rd (Reg.ofAddr (busA b))

/-- CMD decoding, in the order of `40_bus_access.md` R102 and `60_exceptions.md` R205: the reserved bits first,
then OP and MODE; every word that spells no command is rejected by the name of its class in `30_encoding.md` R76. -/
def decodeCmd (v : Word) : Except DecodeError Command :=
  if cmdRSV v ≠ 0 then .error .reservedBits
  else if cmdOP v = 0x1 then
    if cmdMODE v then .error .loadcalWithMode else .ok .loadcal
  else if cmdOP v = 0x2 then .ok (.temp (Mode.ofBit (cmdMODE v)))
  else if cmdOP v = 0x3 then .ok (.pres (Mode.ofBit (cmdMODE v)))
  else .error .illegalOp

/-- The decoder, on an item of either format. -/
def decode : Encoded → Except DecodeError Instr
  | .bus b => .ok (decodeBus b)
  | .cmd v =>
    match decodeCmd v with
    | .ok c => .ok c.toInstr
    | .error e => .error e

/-- A BUS item from its fields (`30_encoding.md` R71). -/
def busItem (we : BitVec 1) (r : Reg) (data : Word) : BusItem := we ++ r.addr ++ data

/-- A command word from its fields, with RSV = 0 (`30_encoding.md` R73). -/
def cmdWord (m : BitVec 1) (op : BitVec 4) : Word := (0 : BitVec 11) ++ m ++ op

/-- The word of a command (`30_encoding.md` R74). -/
def encodeCmd : Command → Word
  | .loadcal => cmdWord 0 0x1
  | .temp m => cmdWord m.bit 0x2
  | .pres m => cmdWord m.bit 0x3

/-- The BUS item that carries a command word: the write of it to CMD (`30_encoding.md` R70, R82). -/
def carrier (v : Word) : BusItem := busItem 1 .cmd v

/-- The encoder: RD and WR in format BUS, with DATA written as 0 in RD (`30_encoding.md` R71), and the commands
in format CMD. -/
def encode : Instr → Encoded
  | .rd r => .bus (busItem 0 r 0)
  | .wr r v => .bus (busItem 1 r v)
  | .loadcal => .cmd (encodeCmd .loadcal)
  | .temp m => .cmd (encodeCmd (.temp m))
  | .pres m => .cmd (encodeCmd (.pres m))

/-- The host transaction an encoded item is issued as: a BUS item is one, a CMD word is carried by one. -/
def Encoded.item : Encoded → BusItem
  | .bus b => b
  | .cmd v => carrier v

/-- The host transaction an instruction is issued as (`30_encoding.md` R82). -/
def encodeItem (i : Instr) : BusItem := (encode i).item

/-- An item of `nbits` bits as the opcode table counts them: 16 for a row of format CMD, 21 (in whole bytes 24) for
a row of format BUS; no other length exists (`30_encoding.md` R70). -/
def encodedOfTable (nbits w : Nat) : Option Encoded :=
  if nbits = 16 then
    if w < 2 ^ 16 then some (.cmd (BitVec.ofNat 16 w)) else none
  else if nbits = 21 ∨ nbits = 24 then
    if w < 2 ^ 21 then some (.bus (BitVec.ofNat 21 w)) else none
  else none

/-- The instruction the decoder reads from a table word; none where the decoder rejects it. -/
def decodeTableWord (nbits w : Nat) : Option Instr :=
  match encodedOfTable nbits w with
  | none => none
  | some e =>
    match decode e with
    | .ok i => some i
    | .error _ => none

end Sys2Proof
end

