-- ==== Sys2Proof/Machine/State.lean ====
section
/-! DEFINITION. The state of the CE-5540 and of the host that drives it, the reasons a step can stop, and reset. -/

namespace Sys2Proof.Machine

/-- STATUS.BAND (`10_state.md` R25): the band of the first-order TEMP. The code 11 is never produced. -/
inductive Band where
  | inBand | low | high
  deriving DecidableEq, Repr

/-- STATUS.ERR (`10_state.md` R27, `60_exceptions.md` R201): the outcome of the most recent command. -/
inductive ErrCode where
  | ok | illegalCmd | calNotValid | calLocked
  deriving DecidableEq, Repr

/-- The staging registers, the only registers a host writes (`10_state.md` R28, R29, R37). -/
structure Staging where
  w0 : Word
  w1 : Word
  w2 : Word
  w3 : Word
  d1 : Word
  d2 : Word
  deriving DecidableEq, Repr

/-- The coefficient registers C1..C6, each of its own width (`10_state.md` R32). -/
structure Coeffs where
  c1 : BitVec 15
  c2 : BitVec 12
  c3 : BitVec 10
  c4 : BitVec 10
  c5 : BitVec 11
  c6 : BitVec 6
  deriving DecidableEq, Repr

/-- The fields of STATUS (`10_state.md` R22). Bits 15:8 have no storage and read 0. -/
structure Status where
  calValid : Bool
  resValid : Bool
  band : Band
  corr : Bool
  err : ErrCode
  deriving DecidableEq, Repr

/-- The state of one CE-5540 (`10_state.md` R20: `staging`, `coeffs`, `result`, `status`) and of its host
(`10_state.md` R35, `92_eei_decisions.md` D28: `program`, `pc`, `trace`; `70_reset_and_hazards.md` R230: `resets`). -/
structure State where
  /-- W0..W3, D1, D2 -/
  staging : Staging
  /-- C1..C6 -/
  coeffs : Coeffs
  /-- RESULT, two's complement (`10_state.md` R30) -/
  result : BitVec 32
  /-- STATUS -/
  status : Status
  /-- the host's list of transactions, in order (log 1) -/
  program : List BusItem
  /-- the index of the next transaction in that list; it has no width limit and does not wrap -/
  pc : Nat
  /-- the values RD has emitted, oldest first (`00_scope.md` R10) -/
  trace : List Word
  /-- the indices before whose transaction the reset input is pulsed, in order (log 3) -/
  resets : List Nat
  deriving DecidableEq, Repr

/-- What stops the machine with a fault. The block itself stops for nothing (`60_exceptions.md` R200). -/
inductive Fault where
  /-- Raised by `step`, by no instruction: no reset is due and the host's list holds no item at the index, so the
  run is over (`92_eei_decisions.md` D28). Safe: the model stops where the spec says nothing (log 2). -/
  | endOfProgram
  deriving DecidableEq, Repr

/-- Why an instruction has no meaning. -/
inductive Refusal where
  /-- Raised only by a refused arm of `exec`; none is refused, so nothing raises it. Safe. -/
  | notModelled (mnemonic : String)
  deriving DecidableEq, Repr

/-- STATUS after reset (`70_reset_and_hazards.md` R230). -/
def Status.reset : Status :=
  { calValid := false, resValid := false, band := .inBand, corr := false, err := .ok }

/-- The machine right after reset (`70_reset_and_hazards.md` R230), with a host that has not been given a program
(log 1). -/
def State.reset : State :=
  { staging := { w0 := 0, w1 := 0, w2 := 0, w3 := 0, d1 := 0, d2 := 0 }
    coeffs := { c1 := 0, c2 := 0, c3 := 0, c4 := 0, c5 := 0, c6 := 0 }
    result := 0
    status := Status.reset
    program := []
    pc := 0
    trace := []
    resets := [] }

end Sys2Proof.Machine
end

