-- ==== Sys2Proof/Machine/Flags.lean ====
section
/-! DEFINITION. The STATUS register: its codes, its read value, the band of a temperature, and what each outcome of a
command writes to it. -/

namespace Sys2Proof.Machine

/-- BAND_code, STATUS[3:2] (`10_state.md` R22). -/
def Band.code : Band → BitVec 2
  | .inBand => 0b00
  | .low => 0b01
  | .high => 0b10

/-- ERR_code, STATUS[7:5] (`60_exceptions.md` R201). -/
def ErrCode.code : ErrCode → BitVec 3
  | .ok => 0b000
  | .illegalCmd => 0b001
  | .calNotValid => 0b010
  | .calLocked => 0b011

/-- A one-bit field as a 16-bit pattern. -/
def bit16 (b : Bool) : Word := (BitVec.ofBool b).setWidth 16

/-- The 16-bit read value of STATUS (`10_state.md` R22):
`ERR_code << 5 | CORR << 4 | BAND_code << 2 | RES_VALID << 1 | CAL_VALID`. -/
def Status.word (st : Status) : Word :=
  (st.err.code.setWidth 16 <<< 5) ||| (bit16 st.corr <<< 4) ||| (st.band.code.setWidth 16 <<< 2)
    ||| (bit16 st.resValid <<< 1) ||| bit16 st.calValid

/-- The band of a first-order TEMP (`42_temperature.md` R143): both thresholds are strict. -/
def bandOf (t : Int) : Band :=
  if t < 200 then .low else if t > 450 then .high else .inBand

/-- STATUS.CORR of a TEMP or PRES that completes: `m == 1 and b != IN` (`10_state.md` R26). -/
def corrOf (m : Mode) (b : Band) : Bool := m == .enabled && b != .inBand

/-- STATUS after a successful LOADCAL (`41_unpack.md` R120). -/
def Status.calibrated : Status :=
  { calValid := true, resValid := false, band := .inBand, corr := false, err := .ok }

/-- STATUS after a successful TEMP or PRES of mode `m` in band `b` (`42_temperature.md` R147, `43_pressure.md` R176);
CAL_VALID stays as it is. -/
def Status.computed (m : Mode) (b : Band) (st : Status) : Status :=
  { calValid := st.calValid, resValid := true, band := b, corr := corrOf m b, err := .ok }

/-- STATUS after a failed command (`60_exceptions.md` R206); CAL_VALID stays as it is. -/
def Status.failed (c : ErrCode) (st : Status) : Status :=
  { calValid := st.calValid, resValid := false, band := .inBand, corr := false, err := c }

end Sys2Proof.Machine
end

