-- ==== Sys2Proof/Machine/Ops.lean ====
section
/-! DEFINITION. The shared operations: the integer primitives of `00_scope.md`, the updates of State, the error report
of a failed command, the reset event and the host's side of a run. -/

namespace Sys2Proof.Machine

/-- `a >> k`: arithmetic right shift, `floor(a / 2^k)` (`00_scope.md` R9). Lean's integer division by a positive
number rounds toward minus infinity. -/
def asr (a : Int) (k : Nat) : Int := a / 2 ^ k

/-- `a << k`: `a * 2^k` (`00_scope.md` R9). -/
def shl (a : Int) (k : Nat) : Int := a * 2 ^ k

/-- `sext_16` (`00_scope.md` R8): the pattern read as a two's-complement integer. -/
def sext16 (v : Word) : Int := if v.getLsbD 15 then (v.toNat : Int) - 65536 else (v.toNat : Int)

/-- `zext_N` (`00_scope.md` R8): the pattern read as the non-negative integer it denotes. -/
def zext {n : Nat} (v : BitVec n) : Int := (v.toNat : Int)

/-- `trunc_32` (`00_scope.md` R8): the 32-bit pattern of an integer modulo 2^32. -/
def trunc32 (x : Int) : BitVec 32 := BitVec.ofInt 32 x

/-- `trunc_16` (`00_scope.md` R8): the 16-bit pattern of an integer modulo 2^16. -/
def trunc16 (x : Int) : Word := BitVec.ofInt 16 x

/-- The bytes of a register on a byte-wide link, most significant first (`20_memory.md` R52). -/
def linkBytes (v : Word) : List Byte := [v.extractLsb' 8 8, v.extractLsb' 0 8]

/-- The register value two bytes of a byte-wide link spell, most significant first (`20_memory.md` R52). -/
def ofLinkBytes (hi lo : Byte) : Word := hi ++ lo

/-- Write W0..W3, D1, D2. -/
def State.setStaging (s : State) (x : Staging) : State := { s with staging := x }

/-- Write C1..C6. -/
def State.setCoeffs (s : State) (c : Coeffs) : State := { s with coeffs := c }

/-- Write RESULT. -/
def State.setResult (s : State) (r : BitVec 32) : State := { s with result := r }

/-- Write STATUS. -/
def State.setStatus (s : State) (st : Status) : State := { s with status := st }

/-- `emit(v)`: append `v` to the host-visible read trace (`00_scope.md` R10). -/
def State.emit (s : State) (v : Word) : State := { s with trace := s.trace ++ [v] }

/-- `pc <- pc + 1` (`00_scope.md` R10, `10_state.md` R35). -/
def State.advance (s : State) : State := { s with pc := s.pc + 1 }

/-- `raise CmdError(c)` (`60_exceptions.md` R206): the one report of a failed command. It writes STATUS[7:1] and
nothing else; no state is saved and control goes nowhere (R208), so nothing returns from it (R209). -/
def State.cmdError (s : State) (c : ErrCode) : State := s.setStatus (s.status.failed c)

/-- A successful TEMP or PRES: RESULT takes `trunc_32(r)` (`42_temperature.md` R148, `43_pressure.md` R177) and STATUS
the outcome. -/
def State.complete (s : State) (m : Mode) (b : Band) (r : Int) : State :=
  (s.setResult (trunc32 r)).setStatus (s.status.computed m b)

/-- A reset is due before the next transaction: the host has scheduled one at an index already reached (log 3). -/
def State.resetDue (s : State) : Bool :=
  match s.resets with
  | [] => false
  | k :: _ => decide (k ≤ s.pc)

/-- The reset event (`70_reset_and_hazards.md` R230): every piece of the block's state takes its reset value, in one
atomic event between transactions. The host's list, its index and what it has read are the host's and stay (log 3). -/
def State.applyReset (s : State) : State :=
  { State.reset with program := s.program, pc := s.pc, trace := s.trace, resets := s.resets.tail }

/-- The transaction at the host's index, if the list holds one (`10_state.md` R35). -/
def State.nextItem (s : State) : Option BusItem := s.program[s.pc]?

/-- The launch state of a host program (`70_reset_and_hazards.md` R231, `92_eei_decisions.md` D28): the reset state,
with the program and the resets the host will apply during it (log 1, log 3). -/
def State.launch (program : List BusItem) (resets : List Nat) : State :=
  { State.reset with program := program, resets := resets }

end Sys2Proof.Machine
end

