-- ==== Sys2Proof/Machine/Operands.lean ====
section
/-! DEFINITION. The operand forms: what a command reads from the staging and coefficient registers, and what a
transaction reads and writes through the register map. -/

namespace Sys2Proof.Machine

/-- D1 as a command reads it, `sext_16(x[D1])` (`10_state.md` R29). -/
def State.countD1 (s : State) : Int := sext16 s.staging.d1

/-- D2 as a command reads it, `sext_16(x[D2])` (`10_state.md` R29). -/
def State.countD2 (s : State) : Int := sext16 s.staging.d2

/-- The value a read of a register yields (`40_bus_access.md` R100). CMD has no storage and reads 0x0000. -/
def State.readReg (s : State) : Reg → Word
  | .cmd => 0x0000
  | .status => s.status.word
  | .w0 => s.staging.w0
  | .w1 => s.staging.w1
  | .w2 => s.staging.w2
  | .w3 => s.staging.w3
  | .d1 => s.staging.d1
  | .d2 => s.staging.d2
  | .resHi => s.result.extractLsb' 16 16
  | .resLo => s.result.extractLsb' 0 16
  | .c1 => s.coeffs.c1.setWidth 16
  | .c2 => s.coeffs.c2.setWidth 16
  | .c3 => s.coeffs.c3.setWidth 16
  | .c4 => s.coeffs.c4.setWidth 16
  | .c5 => s.coeffs.c5.setWidth 16
  | .c6 => s.coeffs.c6.setWidth 16

/-- What a write of a register stores (`40_bus_access.md` R101, `20_memory.md` R56, R57): the staging registers take
the pattern, a read-only register ignores it, and CMD has no storage (its command is `executeCmd`). -/
def State.storeReg (s : State) (r : Reg) (v : Word) : State :=
  match r with
  | .w0 => s.setStaging { s.staging with w0 := v }
  | .w1 => s.setStaging { s.staging with w1 := v }
  | .w2 => s.setStaging { s.staging with w2 := v }
  | .w3 => s.setStaging { s.staging with w3 := v }
  | .d1 => s.setStaging { s.staging with d1 := v }
  | .d2 => s.setStaging { s.staging with d2 := v }
  | .cmd | .status | .resHi | .resLo | .c1 | .c2 | .c3 | .c4 | .c5 | .c6 => s

end Sys2Proof.Machine
end

