-- ==== Sys2Proof/Machine/Calibration.lean ====
section
/-! DEFINITION. The calibration unpacker and LOADCAL (`41_unpack.md`). -/

namespace Sys2Proof.Machine

/-- `C1 = (W0 >> 1) & 0x7FFF` (`41_unpack.md` R121). -/
def coeffC1 (w0 : Word) : BitVec 15 := ((w0 >>> 1) &&& 0x7FFF).setWidth 15

/-- `C2 = ((W2 & 0x003F) << 6) | (W3 & 0x003F)` (`41_unpack.md` R122). -/
def coeffC2 (w2 w3 : Word) : BitVec 12 := (((w2 &&& 0x003F) <<< 6) ||| (w3 &&& 0x003F)).setWidth 12

/-- `C3 = (W3 >> 6) & 0x03FF` (`41_unpack.md` R123). -/
def coeffC3 (w3 : Word) : BitVec 10 := ((w3 >>> 6) &&& 0x03FF).setWidth 10

/-- `C4 = (W2 >> 6) & 0x03FF` (`41_unpack.md` R124). -/
def coeffC4 (w2 : Word) : BitVec 10 := ((w2 >>> 6) &&& 0x03FF).setWidth 10

/-- `C5 = ((W0 & 0x0001) << 10) | ((W1 >> 6) & 0x03FF)` (`41_unpack.md` R125). -/
def coeffC5 (w0 w1 : Word) : BitVec 11 := (((w0 &&& 0x0001) <<< 10) ||| ((w1 >>> 6) &&& 0x03FF)).setWidth 11

/-- `C6 = W1 & 0x003F` (`41_unpack.md` R126). -/
def coeffC6 (w1 : Word) : BitVec 6 := (w1 &&& 0x003F).setWidth 6

/-- The six coefficients of four calibration words (`41_unpack.md` R121 to R126). -/
def unpack (w0 w1 w2 w3 : Word) : Coeffs :=
  { c1 := coeffC1 w0
    c2 := coeffC2 w2 w3
    c3 := coeffC3 w3
    c4 := coeffC4 w2
    c5 := coeffC5 w0 w1
    c6 := coeffC6 w1 }

/-- `W0 = (C1 << 1) | (C5 >> 10)`, of the inverse unpack (`41_unpack.md` R127). -/
def packW0 (c : Coeffs) : Word := (c.c1.setWidth 16 <<< 1) ||| (c.c5.setWidth 16 >>> 10)

/-- `W1 = ((C5 & 0x3FF) << 6) | C6`, of the inverse unpack (`41_unpack.md` R127). -/
def packW1 (c : Coeffs) : Word := ((c.c5.setWidth 16 &&& 0x3FF) <<< 6) ||| c.c6.setWidth 16

/-- `W2 = (C4 << 6) | (C2 >> 6)`, of the inverse unpack (`41_unpack.md` R127). -/
def packW2 (c : Coeffs) : Word := (c.c4.setWidth 16 <<< 6) ||| (c.c2.setWidth 16 >>> 6)

/-- `W3 = (C3 << 6) | (C2 & 0x3F)`, of the inverse unpack (`41_unpack.md` R127). -/
def packW3 (c : Coeffs) : Word := (c.c3.setWidth 16 <<< 6) ||| (c.c2.setWidth 16 &&& 0x3F)

/-- The command LOADCAL (`41_unpack.md` R120). -/
def loadcalCmd (s : State) : State :=
  if s.status.calValid then s.cmdError .calLocked
  else
    (s.setCoeffs (unpack s.staging.w0 s.staging.w1 s.staging.w2 s.staging.w3)).setStatus Status.calibrated

/-- LOADCAL as a transaction: the write of its word to CMD (`41_unpack.md` R120, `40_bus_access.md` R101). -/
def execLoadcal (s : State) : Host.Outcome State Fault Refusal := .next (loadcalCmd s).advance

end Sys2Proof.Machine
end

