-- ==== Sys2Proof/Machine/Temperature.lean ====
section
/-! DEFINITION. Temperature compensation and TEMP (`42_temperature.md`), in exact integers. -/

namespace Sys2Proof.Machine

/-- `UT1 = (C5 << 3) + 20224` (`42_temperature.md` R140). -/
def ut1 (c5 : Int) : Int := shl c5 3 + 20224

/-- `dT = D2 - UT1` (`42_temperature.md` R141). -/
def deltaT (d2 c5 : Int) : Int := d2 - ut1 c5

/-- `TEMP = 200 + ((dT * (C6 + 50)) >> 10)` (`42_temperature.md` R142). -/
def firstTemp (dT c6 : Int) : Int := 200 + asr (dT * (c6 + 50)) 10

/-- `T2 = (11 * (C6 + 24) * (200 - TEMP)^2) >> 20`, band LOW (`42_temperature.md` R144). -/
def t2Low (c6 t : Int) : Int := asr (11 * (c6 + 24) * (200 - t) * (200 - t)) 20

/-- `T2 = (3 * (C6 + 24) * (450 - TEMP)^2) >> 20`, band HIGH (`42_temperature.md` R145). -/
def t2High (c6 t : Int) : Int := asr (3 * (c6 + 24) * (450 - t) * (450 - t)) 20

/-- The result of TEMP (`42_temperature.md` R147): `TEMP - T2` when MODE = 1 and the band is not IN, else TEMP. -/
def tempResult (m : Mode) (c6 t : Int) : Int :=
  match m, bandOf t with
  | .enabled, .low => t - t2Low c6 t
  | .enabled, .high => t - t2High c6 t
  | .enabled, .inBand => t
  | .disabled, _ => t

/-- dT of a state's registers. -/
def State.dT (s : State) : Int := deltaT s.countD2 (zext s.coeffs.c5)

/-- The first-order TEMP of a state's registers, used by TEMP and PRES alike. -/
def State.firstTemp (s : State) : Int := Machine.firstTemp s.dT (zext s.coeffs.c6)

/-- The command TEMP (`42_temperature.md` R147). -/
def tempCmd (m : Mode) (s : State) : State :=
  if s.status.calValid then
    s.complete m (bandOf s.firstTemp) (tempResult m (zext s.coeffs.c6) s.firstTemp)
  else s.cmdError .calNotValid

/-- TEMP as a transaction: the write of its word to CMD (`42_temperature.md` R147, `40_bus_access.md` R101). -/
def execTemp (m : Mode) (s : State) : Host.Outcome State Fault Refusal := .next (tempCmd m s).advance

end Sys2Proof.Machine
end

