-- ==== Sys2Proof/Machine/Pressure.lean ====
section
/-! DEFINITION. Pressure compensation and PRES (`43_pressure.md`), in exact integers. -/

namespace Sys2Proof.Machine

/-- `OFF = (C2 * 4) + (((C4 - 512) * dT) >> 12)` (`43_pressure.md` R170). -/
def pressOff (c2 c4 dT : Int) : Int := c2 * 4 + asr ((c4 - 512) * dT) 12

/-- `SENS = C1 + ((C3 * dT) >> 10) + 24576` (`43_pressure.md` R171). -/
def pressSens (c1 c3 dT : Int) : Int := c1 + asr (c3 * dT) 10 + 24576

/-- `X = ((SENS * (D1 - 7168)) >> 14) - OFF` (`43_pressure.md` R172). -/
def pressX (sens off d1 : Int) : Int := asr (sens * (d1 - 7168)) 14 - off

/-- `PCOMP = ((X * 10) >> 5) + 2500` (`43_pressure.md` R173). -/
def pcomp (x : Int) : Int := asr (x * 10) 5 + 2500

/-- `P2 = (3 * T2 * (PCOMP - 3500)) >> 14`, band LOW (`43_pressure.md` R174). -/
def p2Low (t2 p : Int) : Int := asr (3 * t2 * (p - 3500)) 14

/-- `P2 = (T2 * (PCOMP - 10000)) >> 13`, band HIGH (`43_pressure.md` R175). -/
def p2High (t2 p : Int) : Int := asr (t2 * (p - 10000)) 13

/-- The result of PRES (`43_pressure.md` R176): `PCOMP - P2` when MODE = 1 and the band is not IN, else PCOMP. -/
def presResult (m : Mode) (c6 t p : Int) : Int :=
  match m, bandOf t with
  | .enabled, .low => p - p2Low (t2Low c6 t) p
  | .enabled, .high => p - p2High (t2High c6 t) p
  | .enabled, .inBand => p
  | .disabled, _ => p

/-- The first-order pressure PCOMP of coefficients, a pressure count and dT. -/
def firstPres (c1 c2 c3 c4 d1 dT : Int) : Int := pcomp (pressX (pressSens c1 c3 dT) (pressOff c2 c4 dT) d1)

/-- The first-order pressure of a state's registers; the one D2 gives dT here and the band's TEMP
(`43_pressure.md` R176). -/
def State.firstPres (s : State) : Int :=
  Machine.firstPres (zext s.coeffs.c1) (zext s.coeffs.c2) (zext s.coeffs.c3) (zext s.coeffs.c4) s.countD1 s.dT

/-- The command PRES (`43_pressure.md` R176). -/
def presCmd (m : Mode) (s : State) : State :=
  if s.status.calValid then
    s.complete m (bandOf s.firstTemp) (presResult m (zext s.coeffs.c6) s.firstTemp s.firstPres)
  else s.cmdError .calNotValid

/-- PRES as a transaction: the write of its word to CMD (`43_pressure.md` R176, `40_bus_access.md` R101). -/
def execPres (m : Mode) (s : State) : Host.Outcome State Fault Refusal := .next (presCmd m s).advance

end Sys2Proof.Machine
end

