-- ==== Sys2Proof/Machine/Transactions.lean ====
section
/-! DEFINITION. The host transactions RD and WR and the dispatch of a command word (`40_bus_access.md`). -/

namespace Sys2Proof.Machine

/-- The command a word spells, run. -/
def runCommand (c : Command) (s : State) : State :=
  match c with
  | .loadcal => loadcalCmd s
  | .temp m => tempCmd m s
  | .pres m => presCmd m s

/-- `execute(v)` (`40_bus_access.md` R102): a word that spells no command raises ILLEGAL_CMD whatever CAL_VALID is
(`60_exceptions.md` R205). -/
def executeCmd (v : Word) (s : State) : State :=
  match decodeCmd v with
  | .ok c => runCommand c s
  | .error _ => s.cmdError .illegalCmd

/-- RD (`40_bus_access.md` R100): emit the register's value. -/
def execRd (r : Reg) (s : State) : Host.Outcome State Fault Refusal := .next (s.emit (s.readReg r)).advance

/-- What a write transaction does: a write to CMD starts a command, any other write stores or is ignored
(`40_bus_access.md` R101). -/
def writeReg (r : Reg) (v : Word) (s : State) : State :=
  if r = .cmd then executeCmd v s else s.storeReg r v

/-- WR (`40_bus_access.md` R101). -/
def execWr (r : Reg) (v : Word) (s : State) : Host.Outcome State Fault Refusal := .next (writeReg r v s).advance

end Sys2Proof.Machine
end

