-- ==== Sys2Proof/Machine/Dispatch.lean ====
section
/-! DEFINITION. One arm per constructor of Instr. -/

namespace Sys2Proof.Machine

def exec (i : Instr) (s : State) : Host.Outcome State Fault Refusal :=
  match i with
  | .rd r => Sys2Proof.Machine.execRd r s
  | .wr r v => Sys2Proof.Machine.execWr r v s
  | .loadcal => Sys2Proof.Machine.execLoadcal s
  | .temp m => Sys2Proof.Machine.execTemp m s
  | .pres m => Sys2Proof.Machine.execPres m s

end Sys2Proof.Machine
end

