-- ==== Sys2Proof/Machine/Step.lean ====
section
/-! DEFINITION. One step: the reset event if one is due, else the next transaction of the host's list. -/

namespace Sys2Proof.Machine

/-- One step of the machine (`10_state.md` R35, `20_memory.md` R60, `70_reset_and_hazards.md` R230). -/
def step (s : State) : Host.Outcome State Fault Refusal :=
  if s.resetDue then .next s.applyReset
  else
    match s.nextItem with
    | some b => exec (decodeBus b) s
    | none => .fault .endOfProgram

/-- The transaction a table word is issued as: a word of format CMD by its carrier, the write of it to CMD. -/
def tableItem (nbits w : Nat) : BusItem :=
  if nbits = 16 then carrier (BitVec.ofNat 16 w) else BitVec.ofNat 21 w

/-- `s` with the item of a table word at the host's index, and with no reset due before it, so that the very next step
runs it. A list too short to have that index is filled up with `rd CMD`, behind the index (log 1, log 5). -/
def State.withFetchWord (s : State) (nbits w : Nat) : State :=
  { s with
    program := s.program.take s.pc ++ List.replicate (s.pc - s.program.length) 0 ++ [tableItem nbits w]
      ++ s.program.drop (s.pc + 1)
    resets := s.resets.dropWhile (fun k => decide (k ≤ s.pc)) }

end Sys2Proof.Machine
end

