-- ==== Sys2Proof/WellFormed.lean ====
section
/-! DEFINITION. What the assembler accepts: register numbers and immediates in the ranges of `30_encoding.md` R81.
Every term of `Instr` is an instruction already: BUS decoding is total and every address is a register. -/

namespace Sys2Proof

/-- A register operand is a name or a number 0..15 (`30_encoding.md` R81). -/
def RegOperand.wellFormed : RegOperand → Bool
  | .name _ => true
  | .number n => decide (n ≤ 15)

/-- An immediate lies in -32768..65535 (`30_encoding.md` R81). -/
def immediateOk (x : Int) : Bool := decide (-32768 ≤ x) && decide (x ≤ 65535)

/-- Every operand of the line is one the assembler accepts. -/
def AsmLine.wellFormed : AsmLine → Bool
  | .rd r => r.wellFormed
  | .wr r imm => r.wellFormed && immediateOk imm
  | .loadcal => true
  | .temp _ => true
  | .pres _ => true
  | .cal a b c d => immediateOk a && immediateOk b && immediateOk c && immediateOk d
  | .mtemp _ t => immediateOk t
  | .mpres _ p t => immediateOk p && immediateOk t
  | .rdres => true

end Sys2Proof
end

