-- ==== Sys2Proof/Machine/Assembler.lean ====
section
/-! DEFINITION. The assembler of host programs (`30_encoding.md` R81, R82, `92_eei_decisions.md` D29): what each line
expands to, and the reading of a line of text. -/

namespace Sys2Proof.Machine

/-- The register a register operand names (`30_encoding.md` R81). -/
def regOf : RegOperand → Reg
  | .name r => r
  | .number n => Reg.ofAddr (BitVec.ofNat 4 n)

/-- The instructions a line stands for: R81's two items and the expansions of R82 (`30_encoding.md`). -/
def expandLine : AsmLine → List Instr
  | .rd r => [.rd (regOf r)]
  | .wr r imm => [.wr (regOf r) (trunc16 imm)]
  | .loadcal => [.wr .cmd 0x0001]
  | .temp .disabled => [.wr .cmd 0x0002]
  | .temp .enabled => [.wr .cmd 0x0012]
  | .pres .disabled => [.wr .cmd 0x0003]
  | .pres .enabled => [.wr .cmd 0x0013]
  | .cal a b c d =>
    [.wr .w0 (trunc16 a), .wr .w1 (trunc16 b), .wr .w2 (trunc16 c), .wr .w3 (trunc16 d), .wr .cmd 0x0001]
  | .mtemp .disabled t => [.wr .d2 (trunc16 t), .wr .cmd 0x0002]
  | .mtemp .enabled t => [.wr .d2 (trunc16 t), .wr .cmd 0x0012]
  | .mpres .disabled p t => [.wr .d1 (trunc16 p), .wr .d2 (trunc16 t), .wr .cmd 0x0003]
  | .mpres .enabled p t => [.wr .d1 (trunc16 p), .wr .d2 (trunc16 t), .wr .cmd 0x0013]
  | .rdres => [.rd .resHi, .rd .resLo]

/-- The BUS items of a line; an operand outside the ranges of `30_encoding.md` R81 is refused. -/
def assembleLine (l : AsmLine) : Except AsmError (List BusItem) :=
  if l.wellFormed then .ok ((expandLine l).map encodeItem) else .error .outOfRange

/-- A blank of a line of text (log 9). -/
def isBlank (c : Char) : Bool := c == ' ' || c == '\t' || c == '\r'

/-- The text without blanks at its ends. -/
def trimBlanks (t : List Char) : List Char :=
  ((t.dropWhile isBlank).reverse.dropWhile isBlank).reverse

/-- The pieces of a text between the occurrences of `sep`. -/
def splitAtChar (sep : Char) : List Char → List (List Char)
  | [] => [[]]
  | c :: t =>
    match splitAtChar sep t with
    | [] => [[c]]
    | p :: ps => if c == sep then [] :: p :: ps else (c :: p) :: ps

/-- The value of a digit, decimal or hexadecimal. -/
def digitValue (c : Char) : Option Nat :=
  if '0' ≤ c ∧ c ≤ '9' then some (c.toNat - '0'.toNat)
  else if 'a' ≤ c ∧ c ≤ 'f' then some (c.toNat - 'a'.toNat + 10)
  else if 'A' ≤ c ∧ c ≤ 'F' then some (c.toNat - 'A'.toNat + 10)
  else none

/-- The number a text of digits of the given base spells, added to `acc`. -/
def digitsValue (base : Nat) (acc : Nat) : List Char → Option Nat
  | [] => some acc
  | c :: t =>
    match digitValue c with
    | none => none
    | some d => if d < base then digitsValue base (acc * base + d) t else none

/-- A decimal number. -/
def parseDecimal (t : List Char) : Option Nat := if t = [] then none else digitsValue 10 0 t

/-- An immediate as written: hexadecimal with 0x, decimal, or negative decimal (`30_encoding.md` R81, log 9). -/
def parseImmediate (t : List Char) : Except AsmError Int :=
  match t with
  | '-' :: ds =>
    match parseDecimal ds with
    | some (n + 1) => .ok (-((n : Int) + 1))
    | _ => .error .badNumber
  | '0' :: 'x' :: ds =>
    if ds = [] then .error .badNumber
    else
      match digitsValue 16 0 ds with
      | some n => .ok n
      | none => .error .badNumber
  | ds =>
    match parseDecimal ds with
    | some n => .ok n
    | none => .error .badNumber

/-- The register names (`30_encoding.md` R81). -/
def regNames : List (List Char × Reg) :=
  [("CMD".toList, .cmd), ("STATUS".toList, .status), ("W0".toList, .w0), ("W1".toList, .w1), ("W2".toList, .w2),
   ("W3".toList, .w3), ("D1".toList, .d1), ("D2".toList, .d2), ("RES_HI".toList, .resHi), ("RES_LO".toList, .resLo),
   ("C1".toList, .c1), ("C2".toList, .c2), ("C3".toList, .c3), ("C4".toList, .c4), ("C5".toList, .c5),
   ("C6".toList, .c6)]

/-- A register operand: a name, or a decimal number that is its address (`30_encoding.md` R81, log 9). -/
def parseReg (t : List Char) : Except AsmError RegOperand :=
  match regNames.lookup t with
  | some r => .ok (.name r)
  | none =>
    match parseDecimal t with
    | some n => .ok (.number n)
    | none => .error .badRegister

/-- A line with its mnemonic and no operand, by mnemonic. -/
def plainLines : List (List Char × AsmLine) :=
  [("loadcal".toList, .loadcal), ("temp.d".toList, .temp .disabled), ("temp.e".toList, .temp .enabled),
   ("pres.d".toList, .pres .disabled), ("pres.e".toList, .pres .enabled), ("rdres".toList, .rdres)]

/-- The mode a mnemonic's `.d` or `.e` names, for `mtemp` and `mpres` (`30_encoding.md` R82). -/
def moded (base m : List Char) : Option Mode :=
  if m = base ++ ".d".toList then some .disabled
  else if m = base ++ ".e".toList then some .enabled
  else none

/-- The immediates of a list of operands, in order. -/
def parseImmediates : List (List Char) → Except AsmError (List Int)
  | [] => .ok []
  | t :: ts =>
    match parseImmediate t, parseImmediates ts with
    | .ok x, .ok xs => .ok (x :: xs)
    | .error e, _ => .error e
    | .ok _, .error e => .error e

/-- A line whose operands are all immediates: `cal`, `mtemp.<m>`, `mpres.<m>` (`30_encoding.md` R82). -/
def immediateLine (mnemonic : List Char) (xs : List Int) : Except AsmError AsmLine :=
  match xs with
  | [a, b, c, d] => if mnemonic = "cal".toList then .ok (.cal a b c d) else .error .badOperands
  | [p, t] =>
    match moded "mpres".toList mnemonic with
    | some m => .ok (.mpres m p t)
    | none => .error .badOperands
  | [t] =>
    match moded "mtemp".toList mnemonic with
    | some m => .ok (.mtemp m t)
    | none => .error .badOperands
  | _ => .error .badOperands

/-- A mnemonic whose operands are all immediates. -/
def takesImmediates (mnemonic : List Char) : Bool :=
  mnemonic == "cal".toList || (moded "mtemp".toList mnemonic).isSome || (moded "mpres".toList mnemonic).isSome

/-- A line from its mnemonic, in lower case, and its operands (`30_encoding.md` R81, R82). -/
def parseItem (mnemonic : List Char) (operands : List (List Char)) : Except AsmError AsmLine :=
  match plainLines.lookup mnemonic with
  | some l => if operands = [] then .ok l else .error .badOperands
  | none =>
    if mnemonic = "rd".toList then
      match operands with
      | [r] =>
        match parseReg r with
        | .ok r => .ok (.rd r)
        | .error e => .error e
      | _ => .error .badOperands
    else if mnemonic = "wr".toList then
      match operands with
      | [r, x] =>
        match parseReg r, parseImmediate x with
        | .ok r, .ok x => .ok (.wr r x)
        | .error e, _ => .error e
        | .ok _, .error e => .error e
      | _ => .error .badOperands
    else if takesImmediates mnemonic then
      match parseImmediates operands with
      | .ok xs => immediateLine mnemonic xs
      | .error e => .error e
    else .error .unknownMnemonic

/-- A line of text: `;` starts a comment, mnemonics are case-insensitive (`30_encoding.md` R81); a line without an
item reads as none (log 9). -/
def parseLine (text : List Char) : Except AsmError (Option AsmLine) :=
  let t := trimBlanks (text.takeWhile (· != ';'))
  if t = [] then .ok none
  else
    let mnemonic := (t.takeWhile (fun c => !isBlank c)).map Char.toLower
    let rest := trimBlanks (t.dropWhile (fun c => !isBlank c))
    let operands := if rest = [] then [] else (splitAtChar ',' rest).map trimBlanks
    match parseItem mnemonic operands with
    | .ok l => .ok (some l)
    | .error e => .error e

/-- The BUS items of a program's lines, one item or pseudo-instruction a line, in order. -/
def assembleLines : List (List Char) → Except AsmError (List BusItem)
  | [] => .ok []
  | t :: ts =>
    match parseLine t with
    | .error e => .error e
    | .ok none => assembleLines ts
    | .ok (some l) =>
      match assembleLine l, assembleLines ts with
      | .ok xs, .ok ys => .ok (xs ++ ys)
      | .error e, _ => .error e
      | .ok _, .error e => .error e

/-- The BUS items of a host program's text. -/
def assemble (text : String) : Except AsmError (List BusItem) := assembleLines (splitAtChar '\n' text.toList)

end Sys2Proof.Machine
end

