-- ==== Sys2Proof/Machine/Datapath.lean ====
section
/-! DEFINITION. A realisation of the compensation arithmetic in n-bit two's complement, every intermediate n bits wide
(`00_scope.md` R6, `42_temperature.md` R151, `43_pressure.md` R179, `92_eei_decisions.md` D5). The machine does not use
it: the machine's arithmetic is exact, and claims compare the two. -/

namespace Sys2Proof.Machine

/-- dT in n bits (`42_temperature.md` R140, R141). -/
def deltaTN (n : Nat) (d2 : Word) (c5 : BitVec 11) : BitVec n :=
  d2.signExtend n - ((c5.setWidth n <<< 3) + BitVec.ofNat n 20224)

/-- TEMP in n bits (`42_temperature.md` R142). -/
def firstTempN (n : Nat) (dT : BitVec n) (c6 : BitVec 6) : BitVec n :=
  BitVec.ofNat n 200 + (dT * (c6.setWidth n + BitVec.ofNat n 50)).sshiftRight 10

/-- The band of an n-bit TEMP, by signed comparison (`42_temperature.md` R143). -/
def bandOfN {n : Nat} (t : BitVec n) : Band :=
  if t.slt (BitVec.ofNat n 200) then .low
  else if (BitVec.ofNat n 450).slt t then .high
  else .inBand

/-- T2 in band LOW, in n bits (`42_temperature.md` R144). -/
def t2LowN {n : Nat} (c6 : BitVec 6) (t : BitVec n) : BitVec n :=
  (BitVec.ofNat n 11 * (c6.setWidth n + BitVec.ofNat n 24) * (BitVec.ofNat n 200 - t)
    * (BitVec.ofNat n 200 - t)).sshiftRight 20

/-- T2 in band HIGH, in n bits (`42_temperature.md` R145). -/
def t2HighN {n : Nat} (c6 : BitVec 6) (t : BitVec n) : BitVec n :=
  (BitVec.ofNat n 3 * (c6.setWidth n + BitVec.ofNat n 24) * (BitVec.ofNat n 450 - t)
    * (BitVec.ofNat n 450 - t)).sshiftRight 20

/-- The TEMP result in n bits (`42_temperature.md` R147). -/
def tempResultN (n : Nat) (m : Mode) (d2 : Word) (c5 : BitVec 11) (c6 : BitVec 6) : BitVec n :=
  let t := firstTempN n (deltaTN n d2 c5) c6
  match m, bandOfN t with
  | .enabled, .low => t - t2LowN c6 t
  | .enabled, .high => t - t2HighN c6 t
  | .enabled, .inBand => t
  | .disabled, _ => t

/-- OFF in n bits (`43_pressure.md` R170). -/
def pressOffN {n : Nat} (c2 : BitVec 12) (c4 : BitVec 10) (dT : BitVec n) : BitVec n :=
  c2.setWidth n * BitVec.ofNat n 4 + ((c4.setWidth n - BitVec.ofNat n 512) * dT).sshiftRight 12

/-- SENS in n bits (`43_pressure.md` R171). -/
def pressSensN {n : Nat} (c1 : BitVec 15) (c3 : BitVec 10) (dT : BitVec n) : BitVec n :=
  c1.setWidth n + (c3.setWidth n * dT).sshiftRight 10 + BitVec.ofNat n 24576

/-- X in n bits (`43_pressure.md` R172). -/
def pressXN {n : Nat} (sens off : BitVec n) (d1 : Word) : BitVec n :=
  (sens * (d1.signExtend n - BitVec.ofNat n 7168)).sshiftRight 14 - off

/-- PCOMP in n bits (`43_pressure.md` R173). -/
def pcompN {n : Nat} (x : BitVec n) : BitVec n :=
  (x * BitVec.ofNat n 10).sshiftRight 5 + BitVec.ofNat n 2500

/-- P2 in band LOW, in n bits (`43_pressure.md` R174). -/
def p2LowN {n : Nat} (t2 p : BitVec n) : BitVec n :=
  (BitVec.ofNat n 3 * t2 * (p - BitVec.ofNat n 3500)).sshiftRight 14

/-- P2 in band HIGH, in n bits (`43_pressure.md` R175). -/
def p2HighN {n : Nat} (t2 p : BitVec n) : BitVec n :=
  (t2 * (p - BitVec.ofNat n 10000)).sshiftRight 13

/-- The PRES result in n bits (`43_pressure.md` R176). -/
def presResultN (n : Nat) (m : Mode) (d1 d2 : Word) (c : Coeffs) : BitVec n :=
  let dT := deltaTN n d2 c.c5
  let t := firstTempN n dT c.c6
  let p := pcompN (pressXN (pressSensN c.c1 c.c3 dT) (pressOffN c.c2 c.c4 dT) d1)
  match m, bandOfN t with
  | .enabled, .low => p - p2LowN (t2LowN c.c6 t) p
  | .enabled, .high => p - p2HighN (t2HighN c.c6 t) p
  | .enabled, .inBand => p
  | .disabled, _ => p

end Sys2Proof.Machine
end

