-- ==== Sys2Proof/Safety.lean ====
section
/-! DEFINITION. What holds of the machine in every safe run: the invariant its steps keep. -/

namespace Sys2Proof.Machine

/-- What the fields of STATUS say together (`10_state.md` R22 to R27): without a result there is no band and no
correction; a result means no error and a valid calibration; a correction was applied only outside the band; and the
two calibration errors agree with CAL_VALID. -/
abbrev StatusInv (st : Status) : Prop :=
  (st.resValid = false → st.band = .inBand ∧ st.corr = false) ∧
  (st.resValid = true → st.err = .ok ∧ st.calValid = true) ∧
  (st.corr = true → st.band ≠ .inBand) ∧
  (st.err = .calNotValid → st.calValid = false) ∧
  (st.err = .calLocked → st.calValid = true)

/-- Before a valid CalibrationSet the coefficients are 0 (`10_state.md` R36) and RESULT holds its reset value
(`60_exceptions.md` R203: no command computes before calibration). -/
abbrev UncalibratedInv (s : State) : Prop :=
  s.status.calValid = false →
    s.coeffs = { c1 := 0, c2 := 0, c3 := 0, c4 := 0, c5 := 0, c6 := 0 } ∧ s.result = 0

/-- RESULT lies between the extreme results of all inputs (`43_pressure.md` R179). -/
abbrev ResultInv (s : State) : Prop :=
  -311031 ≤ s.result.toInt ∧ s.result.toInt ≤ 465186

/-- The invariant of the machine. -/
abbrev MachineInv (s : State) : Prop := StatusInv s.status ∧ UncalibratedInv s ∧ ResultInv s

/-- The read values of STATUS that a run can show (the key of `95_test_vectors.md`). -/
def reachableStatusWords : List Word :=
  [0x0000, 0x0001, 0x0003, 0x0007, 0x000B, 0x0017, 0x001B, 0x0020, 0x0021, 0x0040, 0x0061]

/-- The instruction issues a command: a write to CMD, or a command named by its own row. -/
def isCommand : Instr → Bool
  | .wr .cmd _ => true
  | .loadcal => true
  | .temp _ => true
  | .pres _ => true
  | .wr _ _ => false
  | .rd _ => false

end Sys2Proof.Machine
end

