-- ==== Sys2Proof/Certificates/Slice0/Obligations.lean ====
section
/-! DEFINITION. What is claimed of the machine. Each docstring names the rule of the spec a statement formalises. -/

open Sys2Proof Sys2Proof.Machine

/-! ### Encoding -/

/-- Words written out bit by bit from `30_encoding.md` R71 and R74 decode to the instructions they stand for. -/
def Obligations.WordsWrittenOutFromTheSpecDecode : Prop :=
  decode (.bus 0b000010000000000000000) = .ok (.rd .status) ∧
  decode (.bus 0b101110110000110101000) = .ok (.wr .d2 0x61A8) ∧
  decode (.cmd 0b0000000000000001) = .ok .loadcal ∧
  decode (.cmd 0b0000000000010010) = .ok (.temp .enabled) ∧
  decode (.cmd 0b0000000000000011) = .ok (.pres .disabled) ∧
  decode (.cmd 0b0000000000010001) = .error .loadcalWithMode ∧
  decode (.cmd 0b0000000000100010) = .error .reservedBits ∧
  decode (.cmd 0b0000000000000100) = .error .illegalOp

/-- Each of the sixteen word addresses names its register, and no address is reserved (`10_state.md` section 2). -/
def Obligations.EveryAddressNamesItsRegister : Prop :=
  Reg.ofAddr 0x0 = .cmd ∧ Reg.ofAddr 0x1 = .status ∧ Reg.ofAddr 0x2 = .w0 ∧ Reg.ofAddr 0x3 = .w1 ∧
  Reg.ofAddr 0x4 = .w2 ∧ Reg.ofAddr 0x5 = .w3 ∧ Reg.ofAddr 0x6 = .d1 ∧ Reg.ofAddr 0x7 = .d2 ∧
  Reg.ofAddr 0x8 = .resHi ∧ Reg.ofAddr 0x9 = .resLo ∧ Reg.ofAddr 0xA = .c1 ∧ Reg.ofAddr 0xB = .c2 ∧
  Reg.ofAddr 0xC = .c3 ∧ Reg.ofAddr 0xD = .c4 ∧ Reg.ofAddr 0xE = .c5 ∧ Reg.ofAddr 0xF = .c6 ∧
  (∀ a, (Reg.ofAddr a).addr = a) ∧ (∀ r, Reg.ofAddr r.addr = r)

/-- BUS decoding is total: WE = 0 is RD of the register at A whatever DATA holds, WE = 1 is WR of DATA to it
(`30_encoding.md` R72). -/
def Obligations.BusDecodingIsTotal : Prop :=
  ∀ b : BusItem,
    (b.getLsbD 20 = false → decode (.bus b) = .ok (.rd (Reg.ofAddr (b.extractLsb' 16 4)))) ∧
    (b.getLsbD 20 = true →
      decode (.bus b) = .ok (.wr (Reg.ofAddr (b.extractLsb' 16 4)) (b.extractLsb' 0 16)))

/-- The legal CMD words are exactly these five (`30_encoding.md` R74). -/
def Obligations.LegalCommandWordsAreExactlyFive : Prop :=
  ∀ (v : Word) (i : Instr), decode (.cmd v) = .ok i ↔
    (v = 0x0001 ∧ i = .loadcal) ∨ (v = 0x0002 ∧ i = .temp .disabled) ∨ (v = 0x0012 ∧ i = .temp .enabled) ∨
    (v = 0x0003 ∧ i = .pres .disabled) ∨ (v = 0x0013 ∧ i = .pres .enabled)

/-- Decoding an encoded instruction gives it back, in its own format and, for RD and WR, from the BUS item it is issued
as; a command issued as the item that carries it decodes to the write of its word to CMD. -/
def Obligations.DecodeOfEncodeIsTheInstruction : Prop :=
  (∀ i : Instr, decode (encode i) = .ok i) ∧
  (∀ (r : Reg) (v : Word), decodeBus (encodeItem (.rd r)) = .rd r ∧ decodeBus (encodeItem (.wr r v)) = .wr r v) ∧
  (∀ c : Command, decodeBus (encodeItem c.toInstr) = .wr .cmd (encodeCmd c))

/-- Each word has one meaning: a decoded CMD word is the word of its command, a decoded BUS item is the item of its
instruction, up to the DATA field that RD ignores. -/
def Obligations.EncodeOfDecodeIsTheWord : Prop :=
  (∀ (v : Word) (i : Instr), decode (.cmd v) = .ok i → encode i = .cmd v) ∧
  (∀ b : BusItem, b.getLsbD 20 = true → encodeItem (decodeBus b) = b) ∧
  (∀ b : BusItem, b.getLsbD 20 = false → encodeItem (decodeBus b) = b &&& 0x1F0000)

/-! ### One step -/

/-- A step runs the decoded instruction of the item at the host's index (`10_state.md` R35, D28), unless a reset is due
before it: then the step is the reset event, and the host's list, its index and what it has read stay. That the reset
input is a list of indices, and what of the host's side a reset leaves, is the model's choice (log 3). -/
def Obligations.StepRunsTheNextItem : Prop :=
  (∀ (s : State) (b : BusItem) (i : Instr), s.resetDue = false → s.program[s.pc]? = some b →
    decode (.bus b) = .ok i → step s = exec i s) ∧
  (∀ s : State, s.resetDue = true ↔ ∃ k ks, s.resets = k :: ks ∧ k ≤ s.pc) ∧
  (∀ s : State, s.resetDue = true → step s = .next s.applyReset ∧ s.applyReset.program = s.program ∧
    s.applyReset.pc = s.pc ∧ s.applyReset.trace = s.trace ∧ s.applyReset.resets = s.resets.tail)

/-- A step at the item that carries a legal command word runs that command (`30_encoding.md` R70, R82). -/
def Obligations.StepRunsTheCarriedCommand : Prop :=
  ∀ (s : State) (v : Word) (i : Instr), s.resetDue = false → s.program[s.pc]? = some (carrier v) →
    decode (.cmd v) = .ok i → step s = exec i s

/-- After the last item the run is over: with no reset due and no item at the index, a step stops (D28; that it is
this fault is the model's choice, log 2). -/
def Obligations.StepStopsAfterTheLastItem : Prop :=
  ∀ s : State, s.resetDue = false → s.program.length ≤ s.pc → step s = .fault .endOfProgram

/-- A table word placed for the next step is fetched and run by it, from every state: a CMD word by its carrier, a BUS
word as it is. How a table word is laid out and placed (`decodeTableWord`, `withFetchWord`) is the model's choice (log 5,
log 1); the spec gives the two formats and the index of the next item. -/
def Obligations.PlacedWordIsRunByTheNextStep : Prop :=
  ∀ (s : State) (w : Nat) (i : Instr),
    (decodeTableWord 16 w = some i → step (s.withFetchWord 16 w) = exec i (s.withFetchWord 16 w)) ∧
    (decodeTableWord 24 w = some i → step (s.withFetchWord 24 w) = exec i (s.withFetchWord 24 w))

/-- Every transaction completes and advances the host's index by one, from every state (`10_state.md` R35). -/
def Obligations.EveryTransactionAdvancesTheIndexByOne : Prop :=
  ∀ (i : Instr) (s : State), ∃ t, exec i s = .next t ∧ t.pc = s.pc + 1 ∧ t.program = s.program ∧ t.resets = s.resets

/-- Reset, from every state: every piece of the block's state takes its reset value in one event, and it is the only step
that clears CAL_VALID (`70_reset_and_hazards.md` R230). -/
def Obligations.ResetGivesEveryRegisterItsResetValue : Prop :=
  (∀ s : State,
    let t := s.applyReset
    t.staging.w0 = 0x0000 ∧ t.staging.w1 = 0x0000 ∧ t.staging.w2 = 0x0000 ∧ t.staging.w3 = 0x0000 ∧
    t.staging.d1 = 0x0000 ∧ t.staging.d2 = 0x0000 ∧
    t.coeffs.c1 = 0 ∧ t.coeffs.c2 = 0 ∧ t.coeffs.c3 = 0 ∧ t.coeffs.c4 = 0 ∧ t.coeffs.c5 = 0 ∧ t.coeffs.c6 = 0 ∧
    t.result = 0 ∧ t.status.calValid = false ∧ t.status.resValid = false ∧ t.status.band = .inBand ∧
    t.status.corr = false ∧ t.status.err = .ok ∧ t.status.word = 0x0000 ∧ ∀ r : Reg, t.readReg r = 0x0000) ∧
  (∀ r : Reg, State.reset.readReg r = 0x0000) ∧
  (∀ s t : State, step s = .next t → s.status.calValid = true → t.status.calValid = false → t = s.applyReset) ∧
  (∀ s t : State, s.status.calValid = true → exec .loadcal s = .next t → t.coeffs = s.coeffs) ∧
  (∀ s t : State, exec .loadcal s.applyReset = .next t → t.status.calValid = true)

/-! ### Host transactions -/

/-- RD emits the value of the register at its address and advances; nothing else changes, and DATA is ignored
(`40_bus_access.md` R100). -/
def Obligations.ReadEmitsTheRegister : Prop :=
  (∀ (s : State) (r : Reg), exec (.rd r) s = .next { s with trace := s.trace ++ [s.readReg r], pc := s.pc + 1 }) ∧
  (∀ (s : State) (b : BusItem), b.getLsbD 20 = false →
    exec (decodeBus b) s =
      .next { s with trace := s.trace ++ [s.readReg (Reg.ofAddr (b.extractLsb' 16 4))], pc := s.pc + 1 }) ∧
  (∀ s : State,
    let v : Addr → Nat := fun a => (s.readReg (Reg.ofAddr a)).toNat
    v 0x0 = 0 ∧
    v 0x1 = s.status.err.code.toNat * 32 + s.status.corr.toNat * 16 + s.status.band.code.toNat * 4 +
      s.status.resValid.toNat * 2 + s.status.calValid.toNat ∧
    v 0x2 = s.staging.w0.toNat ∧ v 0x3 = s.staging.w1.toNat ∧ v 0x4 = s.staging.w2.toNat ∧
    v 0x5 = s.staging.w3.toNat ∧ v 0x6 = s.staging.d1.toNat ∧ v 0x7 = s.staging.d2.toNat ∧
    v 0x8 = s.result.toNat / 65536 ∧ v 0x9 = s.result.toNat % 65536 ∧
    v 0xA = s.coeffs.c1.toNat ∧ v 0xB = s.coeffs.c2.toNat ∧ v 0xC = s.coeffs.c3.toNat ∧
    v 0xD = s.coeffs.c4.toNat ∧ v 0xE = s.coeffs.c5.toNat ∧ v 0xF = s.coeffs.c6.toNat)

/-- A read has no side effect on the block, two reads with no write between them emit the same value, and CMD reads
0x0000 (`20_memory.md` R55). -/
def Obligations.ReadsHaveNoSideEffect : Prop :=
  ∀ (s : State) (r : Reg), ∃ t u, exec (.rd r) s = .next t ∧ exec (.rd r) t = .next u ∧
    t.staging = s.staging ∧ t.coeffs = s.coeffs ∧ t.result = s.result ∧ t.status = s.status ∧
    (∀ r', t.readReg r' = s.readReg r') ∧
    u.trace = s.trace ++ [s.readReg r, s.readReg r] ∧ s.readReg .cmd = 0x0000

/-- A write of a staging register stores the pattern, which reads back, and has no other effect: every other register
reads as before. A write to CMD starts a command, the only write that does more than store, and writing the same pattern
twice runs it twice: it is not idempotent (`20_memory.md` R56). -/
def Obligations.StagingWritesStoreAndCommandWritesRun : Prop :=
  (∀ (s : State) (r : Reg) (v : Word), r ∈ [Reg.w0, .w1, .w2, .w3, .d1, .d2] →
    ∃ t, exec (.wr r v) s = .next t ∧ t.readReg r = v ∧ (∀ r', r' ≠ r → t.readReg r' = s.readReg r') ∧
      t.coeffs = s.coeffs ∧ t.result = s.result ∧ t.status = s.status ∧ t.trace = s.trace ∧ t.program = s.program ∧
      t.resets = s.resets ∧ t.pc = s.pc + 1) ∧
  (∀ (s t : State) (r : Reg) (v : Word), exec (.wr r v) s = .next t → r ≠ .cmd →
    t.coeffs = s.coeffs ∧ t.result = s.result ∧ t.status = s.status) ∧
  (∀ (s : State) (v : Word), exec (.wr .cmd v) s = .next { executeCmd v s with pc := s.pc + 1 }) ∧
  (∃ (s t u : State) (v : Word), exec (.wr .cmd v) s = .next t ∧ exec (.wr .cmd v) t = .next u ∧
    u.status ≠ t.status)

/-- WR of the register at its address (`40_bus_access.md` R101): the six staging registers take DATA, CMD executes it, and
a write to a read-only register changes no state and reports no error (`20_memory.md` R57); the index advances. -/
def Obligations.WriteStoresExecutesOrIsIgnored : Prop :=
  (∀ (s : State) (v : Word),
    exec (.wr (Reg.ofAddr 0x0) v) s = .next { executeCmd v s with pc := s.pc + 1 } ∧
    exec (.wr (Reg.ofAddr 0x2) v) s = .next { s with staging := { s.staging with w0 := v }, pc := s.pc + 1 } ∧
    exec (.wr (Reg.ofAddr 0x3) v) s = .next { s with staging := { s.staging with w1 := v }, pc := s.pc + 1 } ∧
    exec (.wr (Reg.ofAddr 0x4) v) s = .next { s with staging := { s.staging with w2 := v }, pc := s.pc + 1 } ∧
    exec (.wr (Reg.ofAddr 0x5) v) s = .next { s with staging := { s.staging with w3 := v }, pc := s.pc + 1 } ∧
    exec (.wr (Reg.ofAddr 0x6) v) s = .next { s with staging := { s.staging with d1 := v }, pc := s.pc + 1 } ∧
    exec (.wr (Reg.ofAddr 0x7) v) s = .next { s with staging := { s.staging with d2 := v }, pc := s.pc + 1 } ∧
    (∀ r ∈ [Reg.status, .resHi, .resLo, .c1, .c2, .c3, .c4, .c5, .c6],
      exec (.wr r v) s = .next { s with pc := s.pc + 1 })) ∧
  (∀ a : Addr, Reg.ofAddr a ∈ [Reg.status, .resHi, .resLo, .c1, .c2, .c3, .c4, .c5, .c6] ↔
    a = 0x1 ∨ 0x8 ≤ a.toNat) ∧
  (∀ (s : State) (b : BusItem), b.getLsbD 20 = true →
    exec (decodeBus b) s = exec (.wr (Reg.ofAddr (b.extractLsb' 16 4)) (b.extractLsb' 0 16)) s)

/-- A write to CMD dispatches the word in the order of `40_bus_access.md` R102: reserved bits, then OP and MODE. -/
def Obligations.CommandWordIsDispatchedByItsFields : Prop :=
  ∀ (s : State) (v : Word),
    let op := v.extractLsb' 0 4
    let m : Mode := if v.getLsbD 4 then .enabled else .disabled
    let illegal : State :=
      { s with
        status := { calValid := s.status.calValid, resValid := false, band := .inBand, corr := false,
                    err := .illegalCmd }
        pc := s.pc + 1 }
    exec (.wr .cmd v) s =
      if v.extractLsb' 5 11 ≠ 0 then .next illegal
      else if op = 0x1 ∧ m = .disabled then exec .loadcal s
      else if op = 0x2 then exec (.temp m) s
      else if op = 0x3 then exec (.pres m) s
      else .next illegal

/-- Reading 0x8 then 0x9 yields RESULT, its more significant half first (`20_memory.md` R53). -/
def Obligations.ResultReadsMoreSignificantHalfFirst : Prop :=
  ∀ s : State, ∃ t u hi lo, exec (.rd (Reg.ofAddr 0x8)) s = .next t ∧ exec (.rd (Reg.ofAddr 0x9)) t = .next u ∧
    u.trace = s.trace ++ [hi, lo] ∧ (hi ++ lo : BitVec (16 + 16)) = s.result ∧
    hi = s.result.extractLsb' 16 16 ∧ lo = s.result.extractLsb' 0 16

/-- On a byte-wide link a register's value goes most significant byte first, and the two bytes spell it again
(`20_memory.md` section 2). -/
def Obligations.ByteLinkSendsMostSignificantByteFirst : Prop :=
  ∀ v : Word, ∃ hi lo, linkBytes v = [hi, lo] ∧ v.toNat = hi.toNat * 256 + lo.toNat ∧ ofLinkBytes hi lo = v

/-! ### STATUS -/

/-- STATUS (`10_state.md` R22): the place of every field in the read value, the reserved bits reading 0, its host
writes ignored, its reset value 0, and that only a CMD write and reset write it. -/
def Obligations.StatusLayoutAndWriters : Prop :=
  (∀ st : Status,
    st.word.getLsbD 0 = st.calValid ∧ st.word.getLsbD 1 = st.resValid ∧
    st.word.extractLsb' 2 2 = (match st.band with | .inBand => 0b00 | .low => 0b01 | .high => 0b10) ∧
    st.word.getLsbD 4 = st.corr ∧
    st.word.extractLsb' 5 3 =
      (match st.err with | .ok => 0b000 | .illegalCmd => 0b001 | .calNotValid => 0b010 | .calLocked => 0b011) ∧
    st.word.extractLsb' 8 8 = 0) ∧
  State.reset.status.word = 0x0000 ∧
  (∀ (s : State) (v : Word), exec (.wr .status v) s = .next { s with pc := s.pc + 1 }) ∧
  (∀ s t : State, step s = .next t → t.status ≠ s.status →
    t = s.applyReset ∨ ∃ v, s.program[s.pc]? = some (carrier v))

/-- STATUS after every command, for every command word (`10_state.md` R24 to R27): RES_VALID, BAND and CORR are those of
a successful TEMP or PRES, in whatever mode, and cleared by every other command; ERR is overwritten by every command; no
other transaction changes them; BAND's code 11 does not exist; each is 0 after reset. -/
def Obligations.StatusFieldsAfterEveryCommand : Prop :=
  (∀ (s : State) (v : Word),
    let band : Band := if s.firstTemp < 200 then .low else if 450 < s.firstTemp then .high else .inBand
    ∃ t, exec (.wr .cmd v) s = .next t ∧
      (∀ i m, decode (.cmd v) = .ok i → i = .temp m ∨ i = .pres m → t.status =
        if s.status.calValid then
          { calValid := true, resValid := true, band := band,
            corr := decide (m = .enabled ∧ (s.firstTemp < 200 ∨ 450 < s.firstTemp)), err := .ok }
        else { calValid := false, resValid := false, band := .inBand, corr := false, err := .calNotValid }) ∧
      (decode (.cmd v) = .ok .loadcal → t.status =
        { calValid := true, resValid := false, band := .inBand, corr := false,
          err := if s.status.calValid then .calLocked else .ok }) ∧
      (∀ e, decode (.cmd v) = .error e → t.status =
        { calValid := s.status.calValid, resValid := false, band := .inBand, corr := false, err := .illegalCmd })) ∧
  (∀ (s t : State) (i : Instr), exec i s = .next t → t.status ≠ s.status →
    isCommand i = true ∨ ∃ v, i = .wr .cmd v) ∧
  (∀ b : Band, b.code ≠ 0b11) ∧
  State.reset.status.resValid = false ∧ State.reset.status.band = .inBand ∧ State.reset.status.corr = false ∧
  State.reset.status.err = .ok

/-- CAL_VALID is set only by a successful LOADCAL and cleared only by reset; its reset value is 0 (`10_state.md` R23). -/
def Obligations.CalValidIsSetByLoadcalAndClearedByReset : Prop :=
  (∀ (s t : State) (i : Instr), exec i s = .next t → s.status.calValid = false → t.status.calValid = true →
    i = .loadcal ∨ i = .wr .cmd 0x0001) ∧
  (∀ (s t : State) (i : Instr), exec i s = .next t → s.status.calValid = true → t.status.calValid = true) ∧
  (∀ s t : State, step s = .next t → s.status.calValid = true → t.status.calValid = false → t = s.applyReset) ∧
  (∀ s t : State, exec .loadcal s = .next t → s.status.calValid = false → t.status.calValid = true) ∧
  State.reset.status.calValid = false

/-- In every state that meets the invariant, STATUS reads as one of the eleven values of the key of
`95_test_vectors.md`: no other STATUS value is reachable. -/
def Obligations.StatusShowsOnlyTheElevenKeyWords : Prop :=
  ∀ s : State, MachineInv s → s.status.word ∈ reachableStatusWords

/-! ### Errors -/

/-- The report of a failed command changes only STATUS[7:1] (`60_exceptions.md` R206). -/
def Obligations.FailedCommandChangesOnlyStatusBits7To1 : Prop :=
  ∀ (s : State) (c : ErrCode),
    s.cmdError c =
      { s with
        status := { calValid := s.status.calValid, resValid := false, band := .inBand, corr := false, err := c } } ∧
    (s.cmdError c).status.word.toNat = c.code.toNat * 32 + s.status.calValid.toNat ∧
    (∀ r, r ≠ .status → (s.cmdError c).readReg r = s.readReg r)

/-- A word whose RSV is not 0, whose OP is not LOADCAL, TEMP or PRES, or that is LOADCAL with MODE = 1 raises
ILLEGAL_CMD (`60_exceptions.md` R202). -/
def Obligations.IllegalCommandWordsRaiseIllegalCmd : Prop :=
  ∀ (s : State) (v : Word),
    (v.extractLsb' 5 11 ≠ 0 ∨ v.extractLsb' 0 4 ∉ [(0x1 : BitVec 4), 0x2, 0x3] ∨
      (v.extractLsb' 0 4 = 0x1 ∧ v.getLsbD 4 = true)) →
    exec (.wr .cmd v) s =
      .next { s with
        status := { calValid := s.status.calValid, resValid := false, band := .inBand, corr := false,
                    err := .illegalCmd }
        pc := s.pc + 1 }

/-- A legal TEMP or PRES word while CAL_VALID = 0 raises CAL_NOT_VALID and computes nothing
(`60_exceptions.md` R203). -/
def Obligations.ComputingBeforeCalibrationRaisesCalNotValid : Prop :=
  ∀ (s : State) (m : Mode) (i : Instr), s.status.calValid = false →
    i ∈ [Instr.temp m, .pres m, .wr .cmd (encodeCmd (.temp m)), .wr .cmd (encodeCmd (.pres m))] →
    exec i s =
      .next { s with
        status := { calValid := false, resValid := false, band := .inBand, corr := false, err := .calNotValid }
        pc := s.pc + 1 }

/-- The legal LOADCAL word while CAL_VALID = 1 raises CAL_LOCKED, and the CalibrationSet stays; only a reset ends the
session (`60_exceptions.md` R204). -/
def Obligations.SecondLoadcalRaisesCalLocked : Prop :=
  (∀ s t : State, step s = .next t → s.status.calValid = true → t ≠ s.applyReset →
    t.status.calValid = true ∧ t.coeffs = s.coeffs) ∧
  ∀ (s : State) (i : Instr), s.status.calValid = true → i ∈ [Instr.loadcal, .wr .cmd 0x0001] →
    exec i s =
      .next { s with
        status := { calValid := true, resValid := false, band := .inBand, corr := false, err := .calLocked }
        pc := s.pc + 1 }

/-- The encoding is checked before CAL_VALID: an illegal word raises ILLEGAL_CMD whatever CAL_VALID is, and only a
legal one raises the others (`60_exceptions.md` R205). -/
def Obligations.EncodingIsCheckedBeforeCalibration : Prop :=
  ∀ (s t : State) (v : Word), exec (.wr .cmd v) s = .next t →
    ((∃ e, decode (.cmd v) = .error e) ↔ t.status.err = .illegalCmd) ∧
    (t.status.err = .calNotValid ↔
      s.status.calValid = false ∧ ∃ m, decode (.cmd v) = .ok (.temp m) ∨ decode (.cmd v) = .ok (.pres m)) ∧
    (t.status.err = .calLocked ↔ s.status.calValid = true ∧ decode (.cmd v) = .ok .loadcal)

/-! ### Registers -/

/-- The calibration words (`10_state.md` R28): a write stores the pattern, a read returns it, no command modifies them,
TEMP and PRES do not read them, and they reset to 0. -/
def Obligations.CalibrationWordsAreReadByLoadcalOnly : Prop :=
  (∀ (s : State) (v : Word), ∀ r ∈ [Reg.w0, .w1, .w2, .w3], ∃ t, exec (.wr r v) s = .next t ∧ t.readReg r = v) ∧
  (∀ (s t : State) (v : Word), exec (.wr .cmd v) s = .next t → t.staging = s.staging) ∧
  (∀ (s t : State) (x : Staging) (m : Mode) (i : Instr), i = .temp m ∨ i = .pres m → exec i s = .next t →
    x.d1 = s.staging.d1 → x.d2 = s.staging.d2 → exec i { s with staging := x } = .next { t with staging := x }) ∧
  (∀ r ∈ [Reg.w0, .w1, .w2, .w3], State.reset.readReg r = 0x0000)

/-- The raw counts (`10_state.md` R29): a write stores the pattern and a read returns it unchanged, a command reads each
as a two's-complement integer, no command modifies them, and they reset to 0. -/
def Obligations.RawCountsAreStoredAsPatternsAndReadSigned : Prop :=
  (∀ (s : State) (v : Word), ∀ r ∈ [Reg.d1, .d2], ∃ t, exec (.wr r v) s = .next t ∧ t.readReg r = v) ∧
  (∀ s : State, s.countD1 = s.staging.d1.toInt ∧ s.countD2 = s.staging.d2.toInt) ∧
  (∀ (s t : State) (v : Word), exec (.wr .cmd v) s = .next t →
    t.staging.d1 = s.staging.d1 ∧ t.staging.d2 = s.staging.d2) ∧
  (∀ r ∈ [Reg.d1, .d2], State.reset.readReg r = 0x0000)

/-- RESULT (`10_state.md` R30): a successful TEMP or PRES writes `trunc_32` of its result, which is read back exactly;
every other transaction leaves it; its halves are read at 0x8 and 0x9; it resets to 0. With a valid calibration both
commands end with ERR = OK on every input: no arithmetic condition is an error (`60_exceptions.md` R218). -/
def Obligations.ResultIsWrittenOnlyBySuccessfulTempAndPres : Prop :=
  (∀ (s : State) (m : Mode), s.status.calValid = true →
    (∃ t, exec (.temp m) s = .next t ∧ t.status.err = .ok ∧
      t.result = BitVec.ofInt 32 (tempResult m s.coeffs.c6.toNat s.firstTemp) ∧
      t.result.toInt = tempResult m s.coeffs.c6.toNat s.firstTemp) ∧
    (∃ t, exec (.pres m) s = .next t ∧ t.status.err = .ok ∧
      t.result = BitVec.ofInt 32 (presResult m s.coeffs.c6.toNat s.firstTemp s.firstPres) ∧
      t.result.toInt = presResult m s.coeffs.c6.toNat s.firstTemp s.firstPres)) ∧
  (∀ (s t : State) (i : Instr), exec i s = .next t → t.result ≠ s.result →
    s.status.calValid = true ∧ ∃ m, i ∈ [Instr.temp m, .pres m, .wr .cmd (encodeCmd (.temp m)),
      .wr .cmd (encodeCmd (.pres m))]) ∧
  (∀ s : State, s.readReg (Reg.ofAddr 0x8) = s.result.extractLsb' 16 16 ∧
    s.readReg (Reg.ofAddr 0x9) = s.result.extractLsb' 0 16) ∧
  State.reset.result = 0

/-- The coefficient registers (`10_state.md` R33): Ck is read at 0x9 + k, zero-extended, and writes to it are
ignored. -/
def Obligations.CoefficientsReadZeroExtendedAndIgnoreWrites : Prop :=
  ∀ (s : State) (v : Word),
    (s.readReg (Reg.ofAddr 0xA)).toNat = s.coeffs.c1.toNat ∧ (s.readReg (Reg.ofAddr 0xB)).toNat = s.coeffs.c2.toNat ∧
    (s.readReg (Reg.ofAddr 0xC)).toNat = s.coeffs.c3.toNat ∧ (s.readReg (Reg.ofAddr 0xD)).toNat = s.coeffs.c4.toNat ∧
    (s.readReg (Reg.ofAddr 0xE)).toNat = s.coeffs.c5.toNat ∧ (s.readReg (Reg.ofAddr 0xF)).toNat = s.coeffs.c6.toNat ∧
    (∀ a ∈ [(0xA : Addr), 0xB, 0xC, 0xD, 0xE, 0xF],
      exec (.wr (Reg.ofAddr a) v) s = .next { s with pc := s.pc + 1 })

/-- A step changes the coefficients only by a successful LOADCAL or a reset (`10_state.md` section 5). -/
def Obligations.CoefficientsChangeOnlyByLoadcalOrReset : Prop :=
  ∀ s t : State, step s = .next t → t.coeffs ≠ s.coeffs →
    t = s.applyReset ∨ (s.status.calValid = false ∧ s.program[s.pc]? = some 0x100001)

/-- What each command leaves unchanged: the staging registers, the host's list, its reads and its resets, and, for TEMP
and PRES, the coefficients and CAL_VALID, for LOADCAL, RESULT (`41_unpack.md` R120, `42_temperature.md` R147,
`43_pressure.md` R176). -/
def Obligations.CommandsLeaveTheRestUnchanged : Prop :=
  ∀ (s : State) (i : Instr), isCommand i = true → ∃ t, exec i s = .next t ∧
    (∀ r ∈ [Reg.cmd, .w0, .w1, .w2, .w3, .d1, .d2], t.readReg r = s.readReg r) ∧
    t.staging = s.staging ∧ t.program = s.program ∧ t.trace = s.trace ∧ t.resets = s.resets ∧
    (∀ m, i = .temp m ∨ i = .pres m → t.coeffs = s.coeffs ∧ t.status.calValid = s.status.calValid) ∧
    (i = .loadcal → t.result = s.result)

/-! ### LOADCAL -/

/-- LOADCAL (`41_unpack.md` R120, with the formulas and the bit-field forms of R121 to R126): it unpacks the four words
into the six coefficients and opens the session, or raises CAL_LOCKED if one is open. -/
def Obligations.LoadcalUnpacksTheCalibrationWords : Prop :=
  (∀ s : State, s.status.calValid = false →
    exec .loadcal s =
      .next { s with
        coeffs :=
          { c1 := s.staging.w0.extractLsb' 1 15
            c2 := s.staging.w2.extractLsb' 0 6 ++ s.staging.w3.extractLsb' 0 6
            c3 := s.staging.w3.extractLsb' 6 10
            c4 := s.staging.w2.extractLsb' 6 10
            c5 := s.staging.w0.extractLsb' 0 1 ++ s.staging.w1.extractLsb' 6 10
            c6 := s.staging.w1.extractLsb' 0 6 }
        status := { calValid := true, resValid := false, band := .inBand, corr := false, err := .ok }
        pc := s.pc + 1 }) ∧
  (∀ s : State, s.status.calValid = true →
    exec .loadcal s =
      .next { s with
        status := { calValid := true, resValid := false, band := .inBand, corr := false, err := .calLocked }
        pc := s.pc + 1 }) ∧
  encode .loadcal = .cmd 0x0001 ∧ encodeItem .loadcal = 0x100001 ∧
  (∀ (s t : State) (v : Word), v = 0x0011 ∨ v.extractLsb' 5 11 ≠ 0 → exec (.wr .cmd v) s = .next t →
    t.status.err = .illegalCmd)

/-- The six formulas of `41_unpack.md` R121 to R126 over the words as non-negative integers, with the range of each. -/
def Obligations.CoefficientsFollowTheMaskAndShiftFormulas : Prop :=
  ∀ w0 w1 w2 w3 : Word,
    let c := unpack w0 w1 w2 w3
    c.c1.toNat = (w0.toNat >>> 1) &&& 0x7FFF ∧
    c.c2.toNat = ((w2.toNat &&& 0x003F) <<< 6) ||| (w3.toNat &&& 0x003F) ∧
    c.c3.toNat = (w3.toNat >>> 6) &&& 0x03FF ∧
    c.c4.toNat = (w2.toNat >>> 6) &&& 0x03FF ∧
    c.c5.toNat = ((w0.toNat &&& 0x0001) <<< 10) ||| ((w1.toNat >>> 6) &&& 0x03FF) ∧
    c.c6.toNat = w1.toNat &&& 0x003F ∧
    c.c1 = w0.extractLsb' 1 15 ∧
    c.c2.extractLsb' 6 6 = w2.extractLsb' 0 6 ∧ c.c2.extractLsb' 0 6 = w3.extractLsb' 0 6 ∧
    c.c3 = w3.extractLsb' 6 10 ∧ c.c4 = w2.extractLsb' 6 10 ∧
    c.c5.getLsbD 10 = w0.getLsbD 0 ∧ c.c5.extractLsb' 0 10 = w1.extractLsb' 6 10 ∧
    c.c6 = w1.extractLsb' 0 6 ∧
    c.c1.toNat ≤ 32767 ∧ c.c2.toNat ≤ 4095 ∧ c.c3.toNat ≤ 1023 ∧ c.c4.toNat ≤ 1023 ∧ c.c5.toNat ≤ 2047 ∧
    c.c6.toNat ≤ 63

/-- The unpack is a bijection between the four words and the six coefficients, with the inverse of `41_unpack.md`
section 1. -/
def Obligations.UnpackIsABijection : Prop :=
  (∀ w0 w1 w2 w3 : Word,
    packW0 (unpack w0 w1 w2 w3) = w0 ∧ packW1 (unpack w0 w1 w2 w3) = w1 ∧
    packW2 (unpack w0 w1 w2 w3) = w2 ∧ packW3 (unpack w0 w1 w2 w3) = w3) ∧
  (∀ c : Coeffs, unpack (packW0 c) (packW1 c) (packW2 c) (packW3 c) = c)

/-! ### TEMP and PRES -/

/-- `>>` rounds toward minus infinity, and `<<` multiplies by a power of two (`00_scope.md` section 4). -/
def Obligations.ShiftsAreFloorDivisionAndMultiplication : Prop :=
  ∀ (a : Int) (k : Nat), asr a k * 2 ^ k ≤ a ∧ a < (asr a k + 1) * 2 ^ k ∧ shl a k = a * 2 ^ k

/-- The band thresholds are strict, in both modes and for TEMP and PRES alike (`42_temperature.md` R143). -/
def Obligations.BandThresholdsAreStrict : Prop :=
  (∀ t : Int, (bandOf t = .low ↔ t < 200) ∧ (bandOf t = .high ↔ t > 450) ∧
    (bandOf t = .inBand ↔ 200 ≤ t ∧ t ≤ 450)) ∧
  bandOf 199 = .low ∧ bandOf 200 = .inBand ∧ bandOf 450 = .inBand ∧ bandOf 451 = .high ∧
  (∀ (s : State) (m : Mode), s.status.calValid = true →
    (∃ t, exec (.temp m) s = .next t ∧ t.status.band = bandOf s.firstTemp) ∧
    (∃ t, exec (.pres m) s = .next t ∧ t.status.band = bandOf s.firstTemp))

/-- TEMP (`42_temperature.md` R147): the first-order temperature of D2, C5, C6, the second-order term of its band when
MODE = 1, STATUS and RESULT; CAL_NOT_VALID without a calibration, ILLEGAL_CMD for a word with RSV ≠ 0. -/
def Obligations.TempComputesTheCompensatedTemperature : Prop :=
  (∀ (s : State) (m : Mode), s.status.calValid = true →
    let d2 : Int := s.staging.d2.toInt
    let c5 : Int := s.coeffs.c5.toNat
    let c6 : Int := s.coeffs.c6.toNat
    let dT : Int := d2 - (c5 * 8 + 20224)
    let t : Int := 200 + asr (dT * (c6 + 50)) 10
    let b : Band := if t < 200 then .low else if t > 450 then .high else .inBand
    let r : Int :=
      if m = .enabled ∧ t < 200 then t - asr (11 * (c6 + 24) * (200 - t) ^ 2) 20
      else if m = .enabled ∧ t > 450 then t - asr (3 * (c6 + 24) * (450 - t) ^ 2) 20
      else t
    let st : Status :=
      { calValid := true, resValid := true, band := b, corr := decide (m = .enabled ∧ b ≠ .inBand), err := .ok }
    exec (.temp m) s = .next { s with result := BitVec.ofInt 32 r, status := st, pc := s.pc + 1 } ∧
    st.word ∈ [(0x0003 : Word), 0x0007, 0x000B, 0x0017, 0x001B]) ∧
  (∀ (s : State) (m : Mode), s.status.calValid = false →
    exec (.temp m) s =
      .next { s with
        status := { calValid := false, resValid := false, band := .inBand, corr := false, err := .calNotValid }
        pc := s.pc + 1 }) ∧
  encode (.temp .disabled) = .cmd 0x0002 ∧ encode (.temp .enabled) = .cmd 0x0012 ∧
  (∀ (s t : State) (v : Word), v.extractLsb' 5 11 ≠ 0 → exec (.wr .cmd v) s = .next t → t.status.err = .illegalCmd)

/-- PRES (`43_pressure.md` R176): the first-order pressure of D1, D2 and C1..C4, the second-order term of the band of
the same D2's temperature when MODE = 1, STATUS and RESULT; CAL_NOT_VALID without a calibration, ILLEGAL_CMD for a word
with RSV ≠ 0. -/
def Obligations.PresComputesTheCompensatedPressure : Prop :=
  (∀ (s : State) (m : Mode), s.status.calValid = true →
    let d1 : Int := s.staging.d1.toInt
    let d2 : Int := s.staging.d2.toInt
    let c1 : Int := s.coeffs.c1.toNat
    let c2 : Int := s.coeffs.c2.toNat
    let c3 : Int := s.coeffs.c3.toNat
    let c4 : Int := s.coeffs.c4.toNat
    let c5 : Int := s.coeffs.c5.toNat
    let c6 : Int := s.coeffs.c6.toNat
    let dT : Int := d2 - (c5 * 8 + 20224)
    let off : Int := c2 * 4 + asr ((c4 - 512) * dT) 12
    let sens : Int := c1 + asr (c3 * dT) 10 + 24576
    let x : Int := asr (sens * (d1 - 7168)) 14 - off
    let p : Int := asr (x * 10) 5 + 2500
    let t : Int := 200 + asr (dT * (c6 + 50)) 10
    let b : Band := if t < 200 then .low else if t > 450 then .high else .inBand
    let r : Int :=
      if m = .enabled ∧ t < 200 then p - asr (3 * asr (11 * (c6 + 24) * (200 - t) ^ 2) 20 * (p - 3500)) 14
      else if m = .enabled ∧ t > 450 then p - asr (asr (3 * (c6 + 24) * (450 - t) ^ 2) 20 * (p - 10000)) 13
      else p
    let st : Status :=
      { calValid := true, resValid := true, band := b, corr := decide (m = .enabled ∧ b ≠ .inBand), err := .ok }
    exec (.pres m) s = .next { s with result := BitVec.ofInt 32 r, status := st, pc := s.pc + 1 } ∧
    st.word ∈ [(0x0003 : Word), 0x0007, 0x000B, 0x0017, 0x001B]) ∧
  (∀ (s : State) (m : Mode), s.status.calValid = false →
    exec (.pres m) s =
      .next { s with
        status := { calValid := false, resValid := false, band := .inBand, corr := false, err := .calNotValid }
        pc := s.pc + 1 }) ∧
  encode (.pres .disabled) = .cmd 0x0003 ∧ encode (.pres .enabled) = .cmd 0x0013 ∧
  (∀ (s t : State) (v : Word), v.extractLsb' 5 11 ≠ 0 → exec (.wr .cmd v) s = .next t → t.status.err = .illegalCmd)

/-- RES_HI after TEMP (`42_temperature.md` R148): the result is read back exactly, and its upper half is 0x0000 or
0xFFFF by its sign. -/
def Obligations.TempResultIsReadBackExactly : Prop :=
  ∀ (s : State) (m : Mode), s.status.calValid = true →
    let r := tempResult m s.coeffs.c6.toNat s.firstTemp
    (-60936 ≤ r ∧ r ≤ 1584) ∧
    ∃ t, exec (.temp m) s = .next t ∧ t.result = BitVec.ofInt 32 r ∧ t.result.toInt = r ∧
      (0 ≤ r → t.readReg .resHi = 0x0000) ∧ (r < 0 → t.readReg .resHi = 0xFFFF)

/-- RESULT after PRES (`43_pressure.md` R177): the result is read back exactly, and RES_HI is not always 0x0000 or
0xFFFF. -/
def Obligations.PresResultIsReadBackExactly : Prop :=
  (∀ (s : State) (m : Mode), s.status.calValid = true →
    let r := presResult m s.coeffs.c6.toNat s.firstTemp s.firstPres
    (-409326 ≤ r ∧ r ≤ 646985) ∧
    ∃ t, exec (.pres m) s = .next t ∧ t.result = BitVec.ofInt 32 r ∧ t.result.toInt = r) ∧
  (∃ (s t : State), exec (.pres .enabled) s = .next t ∧ t.result.toInt = 465186 ∧ t.readReg .resHi = 0x0007)

/-- The bounds of every temperature-side intermediate over all inputs (the table of `42_temperature.md` section 5). -/
def Obligations.TemperatureIntermediatesStayInTheirRanges : Prop :=
  ∀ d2 c5 c6 : Int, -32768 ≤ d2 ∧ d2 ≤ 32767 → 0 ≤ c5 ∧ c5 ≤ 2047 → 0 ≤ c6 ∧ c6 ≤ 63 →
    let dT := deltaT d2 c5
    let t := firstTemp dT c6
    (20224 ≤ ut1 c5 ∧ ut1 c5 ≤ 36600) ∧
    (-69368 ≤ dT ∧ dT ≤ 12543) ∧
    (-7838584 ≤ dT * (c6 + 50) ∧ dT * (c6 + 50) ≤ 1417359) ∧
    (-7455 ≤ t ∧ t ≤ 1584) ∧
    (bandOf t = .low →
      (264 ≤ 11 * (c6 + 24) * (200 - t) ^ 2 ∧ 11 * (c6 + 24) * (200 - t) ^ 2 ≤ 56079266925) ∧
      (0 ≤ t2Low c6 t ∧ t2Low c6 t ≤ 53481)) ∧
    (bandOf t = .high →
      (72 ≤ 3 * (c6 + 24) * (450 - t) ^ 2 ∧ 3 * (c6 + 24) * (450 - t) ^ 2 ≤ 335634516) ∧
      (0 ≤ t2High c6 t ∧ t2High c6 t ≤ 320)) ∧
    (∀ m, -60936 ≤ tempResult m c6 t ∧ tempResult m c6 t ≤ 1584)

/-- The bounds of every pressure-side intermediate over all inputs (the table of `43_pressure.md` section 4). -/
def Obligations.PressureIntermediatesStayInTheirRanges : Prop :=
  ∀ d1 d2 c1 c2 c3 c4 c5 c6 : Int, -32768 ≤ d1 ∧ d1 ≤ 32767 → -32768 ≤ d2 ∧ d2 ≤ 32767 →
    0 ≤ c1 ∧ c1 ≤ 32767 → 0 ≤ c2 ∧ c2 ≤ 4095 → 0 ≤ c3 ∧ c3 ≤ 1023 → 0 ≤ c4 ∧ c4 ≤ 1023 → 0 ≤ c5 ∧ c5 ≤ 2047 →
    0 ≤ c6 ∧ c6 ≤ 63 →
    let dT := deltaT d2 c5
    let t := firstTemp dT c6
    let off := pressOff c2 c4 dT
    let sens := pressSens c1 c3 dT
    let x := pressX sens off d1
    let p := pcomp x
    (-35447048 ≤ (c4 - 512) * dT ∧ (c4 - 512) * dT ≤ 35516416) ∧
    (-8655 ≤ off ∧ off ≤ 25051) ∧
    (-70963464 ≤ c3 * dT ∧ c3 * dT ≤ 12831489) ∧
    (-44725 ≤ sens ∧ sens ≤ 69873) ∧
    (-2790448128 ≤ sens * (d1 - 7168) ∧ sens * (d1 - 7168) ≤ 1788678927) ∧
    (-195367 ≤ x ∧ x ≤ 117827) ∧
    (-1953670 ≤ x * 10 ∧ x * 10 ≤ 1178270) ∧
    (-58553 ≤ p ∧ p ≤ 39320) ∧
    (bandOf t = .low →
      (-9955969479 ≤ 3 * t2Low c6 t * (p - 3500) ∧ 3 * t2Low c6 t * (p - 3500) ≤ 5747068260) ∧
      (-607665 ≤ p2Low (t2Low c6 t) p ∧ p2Low (t2Low c6 t) p ≤ 350773)) ∧
    (bandOf t = .high →
      (-21936960 ≤ t2High c6 t * (p - 10000) ∧ t2High c6 t * (p - 10000) ≤ 9382400) ∧
      (-2678 ≤ p2High (t2High c6 t) p ∧ p2High (t2High c6 t) p ≤ 1145)) ∧
    (∀ m, -409326 ≤ presResult m c6 t p ∧ presResult m c6 t p ≤ 646985)

/-- The extreme results of TEMP and PRES over all inputs are exactly those the spec names, and each is attained
(`42_temperature.md` section 5, `43_pressure.md` section 4). -/
def Obligations.ExtremeResultsAreExactAndAttained : Prop :=
  (∀ d1 d2 c1 c2 c3 c4 c5 c6 : Int, -32768 ≤ d1 ∧ d1 ≤ 32767 → -32768 ≤ d2 ∧ d2 ≤ 32767 →
    0 ≤ c1 ∧ c1 ≤ 32767 → 0 ≤ c2 ∧ c2 ≤ 4095 → 0 ≤ c3 ∧ c3 ≤ 1023 → 0 ≤ c4 ∧ c4 ≤ 1023 → 0 ≤ c5 ∧ c5 ≤ 2047 →
    0 ≤ c6 ∧ c6 ≤ 63 →
    let dT := deltaT d2 c5
    let t := firstTemp dT c6
    ∀ m, (-60936 ≤ tempResult m c6 t ∧ tempResult m c6 t ≤ 1584) ∧
      -311031 ≤ presResult m c6 t (firstPres c1 c2 c3 c4 d1 dT) ∧
      presResult m c6 t (firstPres c1 c2 c3 c4 d1 dT) ≤ 465186) ∧
  tempResult .enabled 63 (firstTemp (deltaT (-32768) 2047) 63) = -60936 ∧
  tempResult .disabled 63 (firstTemp (deltaT 32767 0) 63) = 1584 ∧
  presResult .enabled 63 (firstTemp (deltaT (-32768) 2047) 63)
    (firstPres 32767 4095 0 0 (-32768) (deltaT (-32768) 2047)) = 465186 ∧
  presResult .enabled 63 (firstTemp (deltaT (-32768) 2047) 63)
    (firstPres 0 0 1023 1023 (-32768) (deltaT (-32768) 2047)) = -311031

/-- Of the temperature (`42_temperature.md` section 4): the correction never raises it, MODE = 0 and the band IN take
none, and the first-order TEMP is non-decreasing in D2. -/
def Obligations.CorrectionOnlyLowersAndTempIsMonotone : Prop :=
  (∀ c6 t : Int, 0 ≤ c6 →
    tempResult .enabled c6 t ≤ t ∧ tempResult .disabled c6 t = t ∧
    (bandOf t = .inBand → ∀ m, tempResult m c6 t = t)) ∧
  (∀ d d' c5 c6 : Int, 0 ≤ c6 → d ≤ d' → firstTemp (deltaT d c5) c6 ≤ firstTemp (deltaT d' c5) c6)

/-- TEMP's outcome is a function of D2, C5, C6, CAL_VALID and MODE alone: two states that agree on those get the same
RESULT and STATUS, whatever else they hold (`42_temperature.md` section 4). -/
def Obligations.TempDependsOnlyOnItsOperands : Prop :=
  ∀ (s s' : State) (m : Mode), s.status.calValid = true → s'.status.calValid = true →
    s'.staging.d2 = s.staging.d2 → s'.coeffs.c5 = s.coeffs.c5 → s'.coeffs.c6 = s.coeffs.c6 →
    ∃ t t', exec (.temp m) s = .next t ∧ exec (.temp m) s' = .next t' ∧ t'.result = t.result ∧ t'.status = t.status

/-- PRES's outcome is a function of D1, D2, C1..C6, CAL_VALID and MODE alone, and repeating it, with reads and writes of
read-only registers in between, gives the same RESULT and STATUS (`43_pressure.md` section 3). -/
def Obligations.PresDependsOnlyOnItsOperands : Prop :=
  (∀ (s s' : State) (m : Mode), s.status.calValid = true → s'.status.calValid = true →
    s'.staging.d1 = s.staging.d1 → s'.staging.d2 = s.staging.d2 → s'.coeffs = s.coeffs →
    ∃ t t', exec (.pres m) s = .next t ∧ exec (.pres m) s' = .next t' ∧ t'.result = t.result ∧
      t'.status = t.status) ∧
  (∀ (s : State) (m : Mode) (r q : Reg) (v : Word), s.status.calValid = true →
    q ∈ [Reg.status, .resHi, .resLo, .c1, .c2, .c3, .c4, .c5, .c6] →
    ∃ t u w x, exec (.pres m) s = .next t ∧ exec (.rd r) t = .next u ∧ exec (.wr q v) u = .next w ∧
      exec (.pres m) w = .next x ∧ x.result = t.result ∧ x.status = t.status)

/-- PRES reports the band, and applies the correction, exactly as a TEMP of the same registers and MODE would; with
MODE = 0 or in band IN its result is PCOMP (`43_pressure.md` section 3). -/
def Obligations.PresAndTempAgreeOnTheBand : Prop :=
  ∀ (s : State) (m : Mode), ∃ t u, exec (.temp m) s = .next t ∧ exec (.pres m) s = .next u ∧
    t.status = u.status ∧
    (∀ c6 p : Int, m = .disabled ∨ bandOf s.firstTemp = .inBand → presResult m c6 s.firstTemp p = p)

/-- Result pairing and sampling (`70_reset_and_hazards.md` section 3): a LOADCAL or a failed command leaves RESULT and
clears RES_VALID; a write to another address than CMD and a read leave RESULT and STATUS; a step that changes RESULT is a
successful TEMP or PRES, or the reset event, which clears it (`10_state.md` R30). -/
def Obligations.ResultSurvivesEverythingButTempPresAndReset : Prop :=
  (∀ (s : State) (v : Word), (decode (.cmd v) = .ok .loadcal ∨ (∃ e, decode (.cmd v) = .error e) ∨
      s.status.calValid = false) →
    ∃ t, exec (.wr .cmd v) s = .next t ∧ t.result = s.result ∧ t.status.resValid = false) ∧
  (∀ (s : State) (r : Reg) (v : Word), r ≠ .cmd →
    ∃ t, exec (.wr r v) s = .next t ∧ t.result = s.result ∧ t.status = s.status) ∧
  (∀ (s : State) (r : Reg), ∃ t, exec (.rd r) s = .next t ∧ t.result = s.result ∧ t.status = s.status) ∧
  (∀ s t : State, step s = .next t → t.result ≠ s.result →
    t = s.applyReset ∨ (s.status.calValid = true ∧
      ∃ b ∈ [(0x100002 : BusItem), 0x100012, 0x100003, 0x100013], s.program[s.pc]? = some b)) ∧
  (∀ s : State, s.applyReset.result = 0)

/-- A datapath of n ≥ 37 bits of two's complement for every intermediate computes the exact TEMP result
(`42_temperature.md` section 5, D5; the shape of that datapath is the model's choice, log 12). -/
def Obligations.ThirtySevenBitsRealiseTheTemperatureExactly : Prop :=
  ∀ (n : Nat) (m : Mode) (d2 : Word) (c5 : BitVec 11) (c6 : BitVec 6), 37 ≤ n →
    (tempResultN n m d2 c5 c6).toInt = tempResult m c6.toNat (firstTemp (deltaT d2.toInt c5.toNat) c6.toNat)

/-- A datapath of n ≥ 37 bits of two's complement for every intermediate computes the exact PRES result
(`43_pressure.md` section 4, D5; the shape of that datapath is the model's choice, log 12). -/
def Obligations.ThirtySevenBitsRealiseThePressureExactly : Prop :=
  ∀ (n : Nat) (m : Mode) (d1 d2 : Word) (c : Coeffs), 37 ≤ n →
    let dT := deltaT d2.toInt c.c5.toNat
    (presResultN n m d1 d2 c).toInt =
      presResult m c.c6.toNat (firstTemp dT c.c6.toNat)
        (firstPres c.c1.toNat c.c2.toNat c.c3.toNat c.c4.toNat d1.toInt dT)

/-- A 32-bit datapath does not: the witnesses (a), (b) and (c) of `93_implementation_defined.md` A1 (the shape of that
datapath is the model's choice, log 12). -/
def Obligations.ThirtyTwoBitsAreNotEnough : Prop :=
  (tempResultN 32 .enabled 0 0 63).toInt ≠ tempResult .enabled 63 (firstTemp (deltaT 0 0) 63) ∧
  (presResultN 32 .disabled 0x8000 0x7FFF { c1 := 32767, c2 := 0, c3 := 1023, c4 := 0, c5 := 0, c6 := 0 }).toInt ≠
    presResult .disabled 0 (firstTemp (deltaT 32767 0) 0) (firstPres 32767 0 1023 0 (-32768) (deltaT 32767 0)) ∧
  (presResultN 32 .enabled 0x8000 0x8000 { c1 := 32767, c2 := 4095, c3 := 0, c4 := 0, c5 := 2047, c6 := 63 }).toInt ≠
    presResult .enabled 63 (firstTemp (deltaT (-32768) 2047) 63)
      (firstPres 32767 4095 0 0 (-32768) (deltaT (-32768) 2047))

/-! ### Invariants and runs -/

/-- The invariant holds in the reset state, and in the launch state of every program. -/
def Obligations.InvariantHoldsAtReset : Prop :=
  MachineInv State.reset ∧ ∀ (p : List BusItem) (rs : List Nat), MachineInv (State.launch p rs)

/-- Every step keeps the invariant: STATUS stays one of the legal combinations, an uncalibrated block holds coefficients
0 (`10_state.md` section 5) and RESULT 0, and RESULT stays in the range of a result. -/
def Obligations.EveryStepKeepsTheInvariant : Prop :=
  ∀ s t : State, MachineInv s → step s = .next t → MachineInv t

/-- A program runs to its end whatever it holds: with no reset scheduled and n items left, n steps complete from every
state, the index is at the end, and the next step stops because the list is over (`60_exceptions.md` section 1: no
error stops the block; the stop is the model's choice, log 2, and so is the schedule of resets that the premise takes to
be empty, log 3). -/
def Obligations.EveryProgramRunsToItsEnd : Prop :=
  ∀ (s : State) (n : Nat), s.resets = [] → s.pc + n = s.program.length →
    ∃ t : State, core.run n s = .next t ∧ t.pc = s.program.length ∧ t.program = s.program ∧ t.resets = [] ∧
      step t = .fault .endOfProgram

/-- A session: once CAL_VALID is 1, no run without a reset (log 3) changes the coefficients or clears it, whatever the host
issues (`10_state.md` section 3). -/
def Obligations.CalibrationIsImmutableUntilReset : Prop :=
  ∀ (s t : State) (n : Nat), s.status.calValid = true → s.resets = [] → core.run n s = .next t →
    t.coeffs = s.coeffs ∧ t.status.calValid = true

/-! ### Assembler -/

/-- The pseudo-instructions expand to the BUS items of `30_encoding.md` R82. -/
def Obligations.PseudoInstructionsExpandAsListed : Prop :=
  assembleLine .loadcal = .ok [0x100001] ∧
  assembleLine (.temp .disabled) = .ok [0x100002] ∧ assembleLine (.temp .enabled) = .ok [0x100012] ∧
  assembleLine (.pres .disabled) = .ok [0x100003] ∧ assembleLine (.pres .enabled) = .ok [0x100013] ∧
  (∀ a b c d : Int, expandLine (.cal a b c d) =
    expandLine (.wr (.name .w0) a) ++ expandLine (.wr (.name .w1) b) ++ expandLine (.wr (.name .w2) c) ++
      expandLine (.wr (.name .w3) d) ++ expandLine .loadcal) ∧
  (∀ (m : Mode) (t : Int), expandLine (.mtemp m t) = expandLine (.wr (.name .d2) t) ++ expandLine (.temp m)) ∧
  (∀ (m : Mode) (p t : Int), expandLine (.mpres m p t) =
    expandLine (.wr (.name .d1) p) ++ expandLine (.wr (.name .d2) t) ++ expandLine (.pres m)) ∧
  expandLine .rdres = expandLine (.rd (.name .resHi)) ++ expandLine (.rd (.name .resLo))

/-- A line is assembled exactly if its register numbers lie in 0..15 and its immediates in -32768..65535
(`30_encoding.md` section 5): `rd` to the item with WE = 0, the address and DATA = 0, `wr` to the item with WE = 1, the
address and the immediate modulo 2^16, each pseudo-instruction to its items in order, and each item decodes to the
instruction it was written from. The name of the refusal is the model's own (log 9). -/
def Obligations.AssembledItemsDecodeToTheirInstructions : Prop :=
  let inRange : Int → Prop := fun x => -32768 ≤ x ∧ x ≤ 65535
  let rdItem : Nat → BusItem := fun a => BitVec.ofNat 21 (a * 0x10000)
  let wrItem : Nat → Int → BusItem := fun a x => BitVec.ofNat 21 (0x100000 + a * 0x10000 + (x % 0x10000).toNat)
  let command : Nat → Mode → BusItem := fun op m =>
    BitVec.ofNat 21 (0x100000 + (match m with | .disabled => 0 | .enabled => 0x10) + op)
  (∀ r : Reg, assembleLine (.rd (.name r)) = .ok [rdItem r.addr.toNat]) ∧
  (∀ n : Nat, assembleLine (.rd (.number n)) = if n ≤ 15 then .ok [rdItem n] else .error .outOfRange) ∧
  (∀ (r : Reg) (x : Int), inRange x → assembleLine (.wr (.name r) x) = .ok [wrItem r.addr.toNat x]) ∧
  (∀ (n : Nat) (x : Int), n ≤ 15 → inRange x → assembleLine (.wr (.number n) x) = .ok [wrItem n x]) ∧
  (∀ (n : Nat) (x : Int), 15 < n → assembleLine (.wr (.number n) x) = .error .outOfRange) ∧
  (∀ (r : RegOperand) (x : Int), ¬ inRange x → assembleLine (.wr r x) = .error .outOfRange) ∧
  (∀ a b c d : Int, inRange a → inRange b → inRange c → inRange d →
    assembleLine (.cal a b c d) = .ok [wrItem 2 a, wrItem 3 b, wrItem 4 c, wrItem 5 d, 0x100001]) ∧
  (∀ a b c d : Int, ¬ inRange a ∨ ¬ inRange b ∨ ¬ inRange c ∨ ¬ inRange d →
    assembleLine (.cal a b c d) = .error .outOfRange) ∧
  (∀ (m : Mode) (t : Int), inRange t → assembleLine (.mtemp m t) = .ok [wrItem 7 t, command 2 m]) ∧
  (∀ (m : Mode) (t : Int), ¬ inRange t → assembleLine (.mtemp m t) = .error .outOfRange) ∧
  (∀ (m : Mode) (p t : Int), inRange p → inRange t →
    assembleLine (.mpres m p t) = .ok [wrItem 6 p, wrItem 7 t, command 3 m]) ∧
  (∀ (m : Mode) (p t : Int), ¬ inRange p ∨ ¬ inRange t → assembleLine (.mpres m p t) = .error .outOfRange) ∧
  assembleLine .rdres = .ok [rdItem 8, rdItem 9] ∧
  (∀ l : AsmLine,
    (l.wellFormed = false → assembleLine l = .error .outOfRange) ∧
    (l.wellFormed = true → ∃ bs, assembleLine l = .ok bs ∧ bs.map decodeBus = expandLine l))
end

