-- ==== Sys2Proof/Config.lean ====
section
/-! DEFINITION. The two parameters the spec leaves OPEN. No rule of the spec and no definition of the model reads them. -/

namespace Sys2Proof

/-- The time from the CMD write to completion, OPEN (`00_scope.md` R6, `70_reset_and_hazards.md` R237).
The model has no time, so nothing reads it (log 6). -/
opaque Config.cmdLatency : Nat

/-- Where the sixteen registers sit in a host's own address space, OPEN (`20_memory.md` R58).
Nothing reads it (log 6). -/
opaque Config.ceBase : Nat

end Sys2Proof
end

