-- ==== Sys2Proof/Laws/Arith.lean ====
section
/-! SUPPORT. The integer primitives: what a shift, a sign extension, a zero extension and a truncation can give. -/

namespace Sys2Proof.Machine

theorem asr_mono {a b : Int} (k : Nat) (h : a ≤ b) : asr a k ≤ asr b k :=
  Int.ediv_le_ediv (by positivity) h

/-- `>>` is the floor of the quotient (`00_scope.md` R9). -/
theorem asr_eq_fdiv (a : Int) (k : Nat) : asr a k = a.fdiv (2 ^ k) :=
  (Int.fdiv_eq_ediv_of_nonneg a (by positivity)).symm

theorem asr_eq_shiftRight (a : Int) (k : Nat) : asr a k = a >>> k :=
  (Int.shiftRight_eq_div_pow a k).symm

/-- A shift of a value between two bounds lies between the shifts of the bounds. -/
theorem asr_mem {a lo hi : Int} (k : Nat) (h : lo ≤ a ∧ a ≤ hi) : asr lo k ≤ asr a k ∧ asr a k ≤ asr hi k :=
  ⟨asr_mono k h.1, asr_mono k h.2⟩

/-- The product of two values between bounds lies between any bounds of the four corner products. -/
theorem mul_mem {a b la ha lb hb lo hi : Int} (h₁ : la ≤ a ∧ a ≤ ha) (h₂ : lb ≤ b ∧ b ≤ hb)
    (hlo : lo ≤ la * lb ∧ lo ≤ la * hb ∧ lo ≤ ha * lb ∧ lo ≤ ha * hb)
    (hhi : la * lb ≤ hi ∧ la * hb ≤ hi ∧ ha * lb ≤ hi ∧ ha * hb ≤ hi) : lo ≤ a * b ∧ a * b ≤ hi := by
  obtain ⟨p1, p2, p3, p4⟩ := hlo
  obtain ⟨q1, q2, q3, q4⟩ := hhi
  rcases le_total 0 b with hb0 | hb0
  · have e1 : la * b ≤ a * b := mul_le_mul_of_nonneg_right h₁.1 hb0
    have e2 : a * b ≤ ha * b := mul_le_mul_of_nonneg_right h₁.2 hb0
    constructor
    · rcases le_total 0 la with h | h
      · nlinarith [mul_le_mul_of_nonneg_left h₂.1 h]
      · nlinarith [mul_le_mul_of_nonpos_left h₂.2 h]
    · rcases le_total 0 ha with h | h
      · nlinarith [mul_le_mul_of_nonneg_left h₂.2 h]
      · nlinarith [mul_le_mul_of_nonpos_left h₂.1 h]
  · have e1 : ha * b ≤ a * b := mul_le_mul_of_nonpos_right h₁.2 hb0
    have e2 : a * b ≤ la * b := mul_le_mul_of_nonpos_right h₁.1 hb0
    constructor
    · rcases le_total 0 ha with h | h
      · nlinarith [mul_le_mul_of_nonneg_left h₂.1 h]
      · nlinarith [mul_le_mul_of_nonpos_left h₂.2 h]
    · rcases le_total 0 la with h | h
      · nlinarith [mul_le_mul_of_nonneg_left h₂.2 h]
      · nlinarith [mul_le_mul_of_nonpos_left h₂.1 h]

/-- `sext_16` is the two's-complement reading (`00_scope.md` R8). -/
theorem sext16_eq_toInt (v : Word) : sext16 v = v.toInt := by
  have h := BitVec.toInt_eq_msb_cond v
  have hm : v.msb = v.getLsbD 15 := BitVec.msb_eq_getLsbD_last v
  rw [h, sext16, hm]
  norm_num

theorem sext16_mem (v : Word) : -32768 ≤ sext16 v ∧ sext16 v ≤ 32767 := by
  rw [sext16_eq_toInt]
  have h1 := BitVec.le_toInt v
  have h2 := BitVec.toInt_lt (x := v)
  norm_num at h1 h2
  omega

theorem zext_mem {n : Nat} (v : BitVec n) : 0 ≤ zext v ∧ zext v ≤ 2 ^ n - 1 := by
  have := v.isLt
  unfold zext
  have h2 : ((2 ^ n : Nat) : Int) = 2 ^ n := by push_cast; rfl
  omega

/-- An integer in the range of 32-bit two's complement is read back from its truncation. -/
theorem toInt_trunc32 {x : Int} (h : -2147483648 ≤ x ∧ x ≤ 2147483647) : (trunc32 x).toInt = x := by
  unfold trunc32
  rw [BitVec.toInt_ofInt]
  exact Int.bmod_eq_of_le (by norm_num; omega) (by norm_num; omega)

end Sys2Proof.Machine
end

