-- ==== Sys2Proof/Laws/Decode.lean ====
section
/-! SUPPORT. The fields of an encoded item are the fields it was built from. -/

namespace Sys2Proof

@[simp] theorem ofAddr_addr (r : Reg) : Reg.ofAddr r.addr = r := by cases r <;> rfl

theorem addr_ofAddr (a : Addr) : (Reg.ofAddr a).addr = a := by revert a; decide

@[simp] theorem busWE_busItem (we : BitVec 1) (r : Reg) (v : Word) : busWE (busItem we r v) = we.getLsbD 0 := by
  simp only [busWE, busItem, BitVec.getLsbD_append]
  rfl

@[simp] theorem busA_busItem (we : BitVec 1) (r : Reg) (v : Word) : busA (busItem we r v) = r.addr := by
  unfold busA busItem
  rw [BitVec.extractLsb'_append_eq_of_le (by decide)]
  exact BitVec.extractLsb'_append_eq_right

@[simp] theorem busDATA_busItem (we : BitVec 1) (r : Reg) (v : Word) : busDATA (busItem we r v) = v :=
  BitVec.extractLsb'_append_eq_right

theorem decodeBus_carrier (v : Word) : decodeBus (carrier v) = .wr .cmd v := by
  simp [decodeBus, carrier]

/-- A BUS item as a number: its fields at bits 20, 19:16 and 15:0 (`30_encoding.md` R71). -/
theorem busItem_toNat (we : BitVec 1) (r : Reg) (v : Word) :
    (busItem we r v).toNat = we.toNat * 0x100000 + r.addr.toNat * 0x10000 + v.toNat := by
  unfold busItem
  rw [BitVec.toNat_append, BitVec.toNat_append, ← Nat.shiftLeft_add_eq_or_of_lt v.isLt,
    ← Nat.shiftLeft_add_eq_or_of_lt r.addr.isLt]
  simp only [Nat.shiftLeft_eq]
  omega

end Sys2Proof
end

