-- ==== Sys2Proof/Laws/State.lean ====
section
/-! SUPPORT. What each update of State leaves in each field, one lemma per field per update. -/

namespace Sys2Proof.Machine

@[simp] theorem State.setStaging_staging (s : State) (x : Staging) : (s.setStaging x).staging = x := rfl
@[simp] theorem State.setStaging_coeffs (s : State) (x : Staging) : (s.setStaging x).coeffs = s.coeffs := rfl
@[simp] theorem State.setStaging_result (s : State) (x : Staging) : (s.setStaging x).result = s.result := rfl
@[simp] theorem State.setStaging_status (s : State) (x : Staging) : (s.setStaging x).status = s.status := rfl
@[simp] theorem State.setStaging_program (s : State) (x : Staging) : (s.setStaging x).program = s.program := rfl
@[simp] theorem State.setStaging_pc (s : State) (x : Staging) : (s.setStaging x).pc = s.pc := rfl
@[simp] theorem State.setStaging_trace (s : State) (x : Staging) : (s.setStaging x).trace = s.trace := rfl
@[simp] theorem State.setStaging_resets (s : State) (x : Staging) : (s.setStaging x).resets = s.resets := rfl

@[simp] theorem State.setCoeffs_staging (s : State) (c : Coeffs) : (s.setCoeffs c).staging = s.staging := rfl
@[simp] theorem State.setCoeffs_coeffs (s : State) (c : Coeffs) : (s.setCoeffs c).coeffs = c := rfl
@[simp] theorem State.setCoeffs_result (s : State) (c : Coeffs) : (s.setCoeffs c).result = s.result := rfl
@[simp] theorem State.setCoeffs_status (s : State) (c : Coeffs) : (s.setCoeffs c).status = s.status := rfl
@[simp] theorem State.setCoeffs_program (s : State) (c : Coeffs) : (s.setCoeffs c).program = s.program := rfl
@[simp] theorem State.setCoeffs_pc (s : State) (c : Coeffs) : (s.setCoeffs c).pc = s.pc := rfl
@[simp] theorem State.setCoeffs_trace (s : State) (c : Coeffs) : (s.setCoeffs c).trace = s.trace := rfl
@[simp] theorem State.setCoeffs_resets (s : State) (c : Coeffs) : (s.setCoeffs c).resets = s.resets := rfl

@[simp] theorem State.setResult_staging (s : State) (r : BitVec 32) : (s.setResult r).staging = s.staging := rfl
@[simp] theorem State.setResult_coeffs (s : State) (r : BitVec 32) : (s.setResult r).coeffs = s.coeffs := rfl
@[simp] theorem State.setResult_result (s : State) (r : BitVec 32) : (s.setResult r).result = r := rfl
@[simp] theorem State.setResult_status (s : State) (r : BitVec 32) : (s.setResult r).status = s.status := rfl
@[simp] theorem State.setResult_program (s : State) (r : BitVec 32) : (s.setResult r).program = s.program := rfl
@[simp] theorem State.setResult_pc (s : State) (r : BitVec 32) : (s.setResult r).pc = s.pc := rfl
@[simp] theorem State.setResult_trace (s : State) (r : BitVec 32) : (s.setResult r).trace = s.trace := rfl
@[simp] theorem State.setResult_resets (s : State) (r : BitVec 32) : (s.setResult r).resets = s.resets := rfl

@[simp] theorem State.setStatus_staging (s : State) (st : Status) : (s.setStatus st).staging = s.staging := rfl
@[simp] theorem State.setStatus_coeffs (s : State) (st : Status) : (s.setStatus st).coeffs = s.coeffs := rfl
@[simp] theorem State.setStatus_result (s : State) (st : Status) : (s.setStatus st).result = s.result := rfl
@[simp] theorem State.setStatus_status (s : State) (st : Status) : (s.setStatus st).status = st := rfl
@[simp] theorem State.setStatus_program (s : State) (st : Status) : (s.setStatus st).program = s.program := rfl
@[simp] theorem State.setStatus_pc (s : State) (st : Status) : (s.setStatus st).pc = s.pc := rfl
@[simp] theorem State.setStatus_trace (s : State) (st : Status) : (s.setStatus st).trace = s.trace := rfl
@[simp] theorem State.setStatus_resets (s : State) (st : Status) : (s.setStatus st).resets = s.resets := rfl

@[simp] theorem State.emit_staging (s : State) (v : Word) : (s.emit v).staging = s.staging := rfl
@[simp] theorem State.emit_coeffs (s : State) (v : Word) : (s.emit v).coeffs = s.coeffs := rfl
@[simp] theorem State.emit_result (s : State) (v : Word) : (s.emit v).result = s.result := rfl
@[simp] theorem State.emit_status (s : State) (v : Word) : (s.emit v).status = s.status := rfl
@[simp] theorem State.emit_program (s : State) (v : Word) : (s.emit v).program = s.program := rfl
@[simp] theorem State.emit_pc (s : State) (v : Word) : (s.emit v).pc = s.pc := rfl
@[simp] theorem State.emit_trace (s : State) (v : Word) : (s.emit v).trace = s.trace ++ [v] := rfl
@[simp] theorem State.emit_resets (s : State) (v : Word) : (s.emit v).resets = s.resets := rfl

@[simp] theorem State.advance_staging (s : State) : s.advance.staging = s.staging := rfl
@[simp] theorem State.advance_coeffs (s : State) : s.advance.coeffs = s.coeffs := rfl
@[simp] theorem State.advance_result (s : State) : s.advance.result = s.result := rfl
@[simp] theorem State.advance_status (s : State) : s.advance.status = s.status := rfl
@[simp] theorem State.advance_program (s : State) : s.advance.program = s.program := rfl
@[simp] theorem State.advance_pc (s : State) : s.advance.pc = s.pc + 1 := rfl
@[simp] theorem State.advance_trace (s : State) : s.advance.trace = s.trace := rfl
@[simp] theorem State.advance_resets (s : State) : s.advance.resets = s.resets := rfl

@[simp] theorem State.cmdError_staging (s : State) (c : ErrCode) : (s.cmdError c).staging = s.staging := rfl
@[simp] theorem State.cmdError_coeffs (s : State) (c : ErrCode) : (s.cmdError c).coeffs = s.coeffs := rfl
@[simp] theorem State.cmdError_result (s : State) (c : ErrCode) : (s.cmdError c).result = s.result := rfl
@[simp] theorem State.cmdError_status (s : State) (c : ErrCode) : (s.cmdError c).status = s.status.failed c := rfl
@[simp] theorem State.cmdError_program (s : State) (c : ErrCode) : (s.cmdError c).program = s.program := rfl
@[simp] theorem State.cmdError_pc (s : State) (c : ErrCode) : (s.cmdError c).pc = s.pc := rfl
@[simp] theorem State.cmdError_trace (s : State) (c : ErrCode) : (s.cmdError c).trace = s.trace := rfl
@[simp] theorem State.cmdError_resets (s : State) (c : ErrCode) : (s.cmdError c).resets = s.resets := rfl

@[simp] theorem State.complete_staging (s : State) (m : Mode) (b : Band) (r : Int) : (s.complete m b r).staging = s.staging := rfl
@[simp] theorem State.complete_coeffs (s : State) (m : Mode) (b : Band) (r : Int) : (s.complete m b r).coeffs = s.coeffs := rfl
@[simp] theorem State.complete_result (s : State) (m : Mode) (b : Band) (r : Int) : (s.complete m b r).result = trunc32 r := rfl
@[simp] theorem State.complete_status (s : State) (m : Mode) (b : Band) (r : Int) : (s.complete m b r).status = s.status.computed m b := rfl
@[simp] theorem State.complete_program (s : State) (m : Mode) (b : Band) (r : Int) : (s.complete m b r).program = s.program := rfl
@[simp] theorem State.complete_pc (s : State) (m : Mode) (b : Band) (r : Int) : (s.complete m b r).pc = s.pc := rfl
@[simp] theorem State.complete_trace (s : State) (m : Mode) (b : Band) (r : Int) : (s.complete m b r).trace = s.trace := rfl
@[simp] theorem State.complete_resets (s : State) (m : Mode) (b : Band) (r : Int) : (s.complete m b r).resets = s.resets := rfl

@[simp] theorem State.applyReset_staging (s : State) : s.applyReset.staging = State.reset.staging := rfl
@[simp] theorem State.applyReset_coeffs (s : State) : s.applyReset.coeffs = State.reset.coeffs := rfl
@[simp] theorem State.applyReset_result (s : State) : s.applyReset.result = State.reset.result := rfl
@[simp] theorem State.applyReset_status (s : State) : s.applyReset.status = Status.reset := rfl
@[simp] theorem State.applyReset_program (s : State) : s.applyReset.program = s.program := rfl
@[simp] theorem State.applyReset_pc (s : State) : s.applyReset.pc = s.pc := rfl
@[simp] theorem State.applyReset_trace (s : State) : s.applyReset.trace = s.trace := rfl
@[simp] theorem State.applyReset_resets (s : State) : s.applyReset.resets = s.resets.tail := rfl

@[simp] theorem Status.calibrated_calValid : Status.calibrated.calValid = true := rfl
@[simp] theorem Status.calibrated_resValid : Status.calibrated.resValid = false := rfl
@[simp] theorem Status.calibrated_band : Status.calibrated.band = .inBand := rfl
@[simp] theorem Status.calibrated_corr : Status.calibrated.corr = false := rfl
@[simp] theorem Status.calibrated_err : Status.calibrated.err = .ok := rfl

@[simp] theorem Status.reset_calValid : Status.reset.calValid = false := rfl
@[simp] theorem Status.reset_resValid : Status.reset.resValid = false := rfl
@[simp] theorem Status.reset_band : Status.reset.band = .inBand := rfl
@[simp] theorem Status.reset_corr : Status.reset.corr = false := rfl
@[simp] theorem Status.reset_err : Status.reset.err = .ok := rfl

@[simp] theorem Status.computed_calValid (st : Status) (m : Mode) (b : Band) : (st.computed m b).calValid = st.calValid := rfl
@[simp] theorem Status.computed_resValid (st : Status) (m : Mode) (b : Band) : (st.computed m b).resValid = true := rfl
@[simp] theorem Status.computed_band (st : Status) (m : Mode) (b : Band) : (st.computed m b).band = b := rfl
@[simp] theorem Status.computed_corr (st : Status) (m : Mode) (b : Band) : (st.computed m b).corr = corrOf m b := rfl
@[simp] theorem Status.computed_err (st : Status) (m : Mode) (b : Band) : (st.computed m b).err = .ok := rfl

@[simp] theorem Status.failed_calValid (st : Status) (c : ErrCode) : (st.failed c).calValid = st.calValid := rfl
@[simp] theorem Status.failed_resValid (st : Status) (c : ErrCode) : (st.failed c).resValid = false := rfl
@[simp] theorem Status.failed_band (st : Status) (c : ErrCode) : (st.failed c).band = .inBand := rfl
@[simp] theorem Status.failed_corr (st : Status) (c : ErrCode) : (st.failed c).corr = false := rfl
@[simp] theorem Status.failed_err (st : Status) (c : ErrCode) : (st.failed c).err = c := rfl

end Sys2Proof.Machine
end

