-- ==== Sys2Proof/Laws/Ops.lean ====
section
/-! SUPPORT. What each shared operation can do, said once: the commands by their cases, the frames, one step. -/

namespace Sys2Proof.Machine

theorem exec_rd (r : Reg) (s : State) : exec (.rd r) s = .next (s.emit (s.readReg r)).advance := rfl

theorem exec_wr (r : Reg) (v : Word) (s : State) : exec (.wr r v) s = .next (writeReg r v s).advance := rfl

theorem exec_command (c : Command) (s : State) : exec c.toInstr s = .next (runCommand c s).advance := by
  cases c <;> rfl

theorem loadcalCmd_of_not_calValid {s : State} (h : s.status.calValid = false) :
    loadcalCmd s = (s.setCoeffs (unpack s.staging.w0 s.staging.w1 s.staging.w2 s.staging.w3)).setStatus
      Status.calibrated := by
  simp [loadcalCmd, h]

theorem loadcalCmd_of_calValid {s : State} (h : s.status.calValid = true) : loadcalCmd s = s.cmdError .calLocked := by
  simp [loadcalCmd, h]

theorem tempCmd_of_calValid (m : Mode) {s : State} (h : s.status.calValid = true) :
    tempCmd m s = s.complete m (bandOf s.firstTemp) (tempResult m (zext s.coeffs.c6) s.firstTemp) := by
  simp [tempCmd, h]

theorem tempCmd_of_not_calValid (m : Mode) {s : State} (h : s.status.calValid = false) :
    tempCmd m s = s.cmdError .calNotValid := by
  simp [tempCmd, h]

theorem presCmd_of_calValid (m : Mode) {s : State} (h : s.status.calValid = true) :
    presCmd m s =
      s.complete m (bandOf s.firstTemp) (presResult m (zext s.coeffs.c6) s.firstTemp s.firstPres) := by
  simp [presCmd, h]

theorem presCmd_of_not_calValid (m : Mode) {s : State} (h : s.status.calValid = false) :
    presCmd m s = s.cmdError .calNotValid := by
  simp [presCmd, h]

theorem executeCmd_of_ok {v : Word} {c : Command} (h : decodeCmd v = .ok c) (s : State) :
    executeCmd v s = runCommand c s := by
  simp [executeCmd, h]

theorem executeCmd_of_error {v : Word} {e : DecodeError} (h : decodeCmd v = .error e) (s : State) :
    executeCmd v s = s.cmdError .illegalCmd := by
  simp [executeCmd, h]

/-- Everything a CMD write can do to the block: report an error, open the session, or complete a computation. -/
theorem executeCmd_cases (v : Word) (s : State) :
    (∃ c, executeCmd v s = s.cmdError c ∧ (c = .calNotValid → s.status.calValid = false) ∧
      (c = .calLocked → s.status.calValid = true) ∧ c ≠ .ok) ∨
    (s.status.calValid = false ∧ decodeCmd v = .ok .loadcal ∧
      executeCmd v s = (s.setCoeffs (unpack s.staging.w0 s.staging.w1 s.staging.w2 s.staging.w3)).setStatus
        Status.calibrated) ∨
    (s.status.calValid = true ∧ ∃ m, decodeCmd v = .ok (.temp m) ∧ executeCmd v s =
      s.complete m (bandOf s.firstTemp) (tempResult m (zext s.coeffs.c6) s.firstTemp)) ∨
    (s.status.calValid = true ∧ ∃ m, decodeCmd v = .ok (.pres m) ∧ executeCmd v s =
      s.complete m (bandOf s.firstTemp) (presResult m (zext s.coeffs.c6) s.firstTemp s.firstPres)) := by
  cases hd : decodeCmd v with
  | error e => exact .inl ⟨_, executeCmd_of_error hd s, by simp⟩
  | ok c =>
    rw [executeCmd_of_ok hd]
    cases hv : s.status.calValid <;> cases c with
    | loadcal =>
      first
        | exact .inr (.inl ⟨rfl, rfl, loadcalCmd_of_not_calValid hv⟩)
        | exact .inl ⟨_, loadcalCmd_of_calValid hv, by simp⟩
    | temp m =>
      first
        | exact .inl ⟨_, tempCmd_of_not_calValid m hv, by simp⟩
        | exact .inr (.inr (.inl ⟨rfl, m, rfl, tempCmd_of_calValid m hv⟩))
    | pres m =>
      first
        | exact .inl ⟨_, presCmd_of_not_calValid m hv, by simp⟩
        | exact .inr (.inr (.inr ⟨rfl, m, rfl, presCmd_of_calValid m hv⟩))

/-- A command leaves the staging registers and the host's side as they are. -/
theorem executeCmd_frame (v : Word) (s : State) :
    (executeCmd v s).staging = s.staging ∧ (executeCmd v s).program = s.program ∧ (executeCmd v s).pc = s.pc ∧
      (executeCmd v s).trace = s.trace ∧ (executeCmd v s).resets = s.resets := by
  rcases executeCmd_cases v s with ⟨c, h, -⟩ | ⟨-, -, h⟩ | ⟨-, m, -, h⟩ | ⟨-, m, -, h⟩ <;> simp [h]

/-- A store leaves everything but the staging registers as it is. -/
theorem storeReg_frame (s : State) (r : Reg) (v : Word) :
    (s.storeReg r v).coeffs = s.coeffs ∧ (s.storeReg r v).result = s.result ∧ (s.storeReg r v).status = s.status ∧
      (s.storeReg r v).program = s.program ∧ (s.storeReg r v).pc = s.pc ∧ (s.storeReg r v).trace = s.trace ∧
      (s.storeReg r v).resets = s.resets := by
  cases r <;> simp [State.storeReg]

theorem writeReg_cmd (v : Word) (s : State) : writeReg .cmd v s = executeCmd v s := by simp [writeReg]

theorem writeReg_of_ne_cmd {r : Reg} (h : r ≠ .cmd) (v : Word) (s : State) : writeReg r v s = s.storeReg r v := by
  simp [writeReg, h]

/-- Everything a step that answers a next state can have done. -/
theorem step_cases {s t : State} (h : step s = .next t) :
    (s.resetDue = true ∧ t = s.applyReset) ∨
    (s.resetDue = false ∧ ∃ b, s.nextItem = some b ∧ exec (decodeBus b) s = .next t) := by
  unfold step at h
  split at h
  · next hr => exact .inl ⟨hr, by simpa using h.symm⟩
  · next hr =>
    split at h
    · next b hb => exact .inr ⟨by simpa using hr, b, hb, h⟩
    · cases h

end Sys2Proof.Machine
end

