-- ==== Sys2Proof/Laws/PerInstr.lean ====
section
/-! SUPPORT. Per instruction: the encoded word of every instruction fits its row of `opcode_table.json`. -/

namespace Sys2Proof.Laws.FitsTableRow

/-- The row's mask selects the row's match from the encoded word (`opcode_table.json`). -/
def Statement : Instr → Prop
  | .rd r => ∃ b, encode (.rd r) = .bus b ∧ b &&& 0x100000 = 0x000000
  | .wr r v => ∃ b, encode (.wr r v) = .bus b ∧ b &&& 0x100000 = 0x100000
  | .loadcal => ∃ v, encode .loadcal = .cmd v ∧ v &&& 0xFFFF = 0x0001
  | .temp m => ∃ v, encode (.temp m) = .cmd v ∧ v &&& 0xFFEF = 0x0002
  | .pres m => ∃ v, encode (.pres m) = .cmd v ∧ v &&& 0xFFEF = 0x0003

theorem rd (r : Reg) : Statement (.rd r) := ⟨_, rfl, by cases r <;> decide⟩

theorem wr (r : Reg) (v : Word) : Statement (.wr r v) := by
  refine ⟨_, rfl, ?_⟩
  have hm : (0x100000 : BusItem) = (1 : BitVec 1) ++ (0 : BitVec 4) ++ (0 : BitVec 16) := by decide
  rw [hm, busItem, BitVec.and_append, BitVec.and_append]
  simp

theorem loadcal : Statement .loadcal := ⟨_, rfl, by decide⟩

theorem temp (m : Mode) : Statement (.temp m) := ⟨_, rfl, by cases m <;> decide⟩

theorem pres (m : Mode) : Statement (.pres m) := ⟨_, rfl, by cases m <;> decide⟩

end Sys2Proof.Laws.FitsTableRow
end

