-- ==== Sys2Proof/Tests/Slice0.lean ====
section
/-! SUPPORT. Tests of the model against `95_test_vectors.md`, smoke tests of well-formedness, and for each statement
with hypotheses a state and operands that meet them. -/

namespace Sys2Proof.Tests

open Sys2Proof Sys2Proof.Machine

/-! ### Helpers -/

/-- The state a transaction leaves (the reset state where it leaves none). -/
def after (i : Instr) (s : State) : State :=
  match exec i s with
  | .next t => t
  | .fault _ => State.reset
  | .refused _ => State.reset

/-- A block with the given words and counts staged, before LOADCAL. -/
def staged (w0 w1 w2 w3 d1 d2 : Word) : State :=
  State.reset.setStaging { w0 := w0, w1 := w1, w2 := w2, w3 := w3, d1 := d1, d2 := d2 }

/-- The same block after LOADCAL. -/
def calibrated (w0 w1 w2 w3 d1 d2 : Word) : State := after .loadcal (staged w0 w1 w2 w3 d1 d2)

/-- Set A of `95_test_vectors.md`, with the counts of vector P-2. -/
def setA : State := calibrated 0xB75D 0x361E 0x9614 0xB92C 0x3E80 0x5DC0

/-- Set T of `95_test_vectors.md` with a temperature count. -/
def setT (d2 : Word) : State := calibrated 0x0000 0x1914 0x0000 0x0000 0 d2

/-! ### Well-formedness: what each check refuses -/

theorem smoke_register_number_16 : (AsmLine.rd (.number 16)).wellFormed = false := by decide
theorem smoke_write_register_number_16 : (AsmLine.wr (.number 16) 0).wellFormed = false := by decide
theorem smoke_immediate_65536 : (AsmLine.wr (.name .d2) 65536).wellFormed = false := by decide
theorem smoke_immediate_below : (AsmLine.wr (.name .d2) (-32769)).wellFormed = false := by decide
theorem smoke_cal_each_word :
    (AsmLine.cal 65536 0 0 0).wellFormed = false ∧ (AsmLine.cal 0 65536 0 0).wellFormed = false ∧
    (AsmLine.cal 0 0 65536 0).wellFormed = false ∧ (AsmLine.cal 0 0 0 65536).wellFormed = false := by decide
theorem smoke_counts :
    (AsmLine.mtemp .disabled 65536).wellFormed = false ∧ (AsmLine.mpres .disabled 65536 0).wellFormed = false ∧
    (AsmLine.mpres .disabled 0 65536).wellFormed = false := by decide
theorem smoke_limits_are_accepted :
    (AsmLine.wr (.number 15) 65535).wellFormed = true ∧ (AsmLine.wr (.number 0) (-32768)).wellFormed = true := by
  decide

/-! ### Decoding: words written out from `30_encoding.md` R71, R73, R74 (`95_test_vectors.md` 2.1, 2.2) -/

/-- WE = 0, A = 0001, DATA = all ones, ignored -/
theorem test_decode_rd : decodeBus 0b000011111111111111111 = .rd .status := by decide
/-- WE = 1, A = 0111, DATA = 0x61A8 -/
theorem test_decode_wr : decodeBus 0b101110110000110101000 = .wr .d2 0x61A8 := by decide
/-- RSV = 0, MODE = 0, OP = 0001 -/
theorem test_decode_loadcal : decode (.cmd 0b0000000000000001) = .ok .loadcal := by decide
/-- RSV = 0, MODE = 1, OP = 0010 -/
theorem test_decode_temp : decode (.cmd 0b0000000000010010) = .ok (.temp .enabled) := by decide
/-- RSV = 0, MODE = 1, OP = 0011 -/
theorem test_decode_pres : decode (.cmd 0b0000000000010011) = .ok (.pres .enabled) := by decide
theorem test_decode_rejects :
    decode (.cmd 0b0000000000000000) = .error .illegalOp ∧ decode (.cmd 0b0000000000010001) = .error .loadcalWithMode ∧
    decode (.cmd 0b1000000000000010) = .error .reservedBits := by decide
theorem test_table_words :
    decodeTableWord 16 0x0003 = some (.pres .disabled) ∧ decodeTableWord 24 0x0F0000 = some (.rd .c6) ∧
    decodeTableWord 24 0x100001 = some (.wr .cmd 1) ∧ decodeTableWord 16 0x0022 = none ∧
    decodeTableWord 8 0x01 = none := by decide

/-! ### Instructions: vectors of `95_test_vectors.md` -/

/-- 2.1: after `wr D1, -1`, `rd D1` emits the pattern -/
theorem test_rd_pattern : (after (.rd .d1) (after (.wr .d1 0xFFFF) State.reset)).trace = [0xFFFF] := by decide
/-- P1 items 9 and 10: RESULT = -949 is read as 0xFFFF, 0xFC4B -/
theorem test_rd_result :
    (after (.rd .resLo) (after (.rd .resHi) { State.reset with result := 0xFFFFFC4B })).trace = [0xFFFF, 0xFC4B] := by
  decide
/-- P3 item 23: TEMP with a reserved bit raises ILLEGAL_CMD -/
theorem test_wr_illegal : (after (.wr .cmd 0x0022) setA).status.word = 0x0021 := by decide
/-- P3 item 18: a write to STATUS is ignored -/
theorem test_wr_status : (after (.wr .status 0xFFFF) (after (.wr .cmd 0x0001) setA)).status.word = 0x0061 := by decide
/-- U-15: W0 bit 0 goes to C5 bit 10, the other bits to C1 -/
theorem test_loadcal_w0 :
    (calibrated 0x8001 0 0 0 0 0).coeffs = { c1 := 16384, c2 := 0, c3 := 0, c4 := 0, c5 := 1024, c6 := 0 } := by decide
/-- U-12: set A -/
theorem test_loadcal_set_a :
    setA.coeffs = { c1 := 23470, c2 := 1324, c3 := 740, c4 := 600, c5 := 1240, c6 := 30 } ∧
    setA.status.word = 0x0001 := by decide
/-- T-3: the floor shift gives 199, LOW, and a correction of 0 -/
theorem test_temp_floor :
    (after (.temp .enabled) (setT 0x521F)).result = 0x000000C7 ∧
    (after (.temp .enabled) (setT 0x521F)).status.word = 0x0017 := by decide
/-- T-8: D2 = 0x8000 is negative -/
theorem test_temp_negative : (after (.temp .enabled) (setT 0x8000)).result = 0xFFFFDA06 := by decide
/-- P-2: set A, LOW, corrected -/
theorem test_pres_low :
    (after (.pres .enabled) setA).result = 0x00001FB7 ∧ (after (.pres .enabled) setA).status.word = 0x0017 := by decide
/-- P-6: set B, HIGH, P2 < 0 -/
theorem test_pres_high :
    (after (.pres .enabled) (calibrated 0x9C40 0x1928 0xAF1F 0x9610 0x3E80 0x7FFF)).result = 0x00002149 := by decide
/-- 2.2: before a calibration TEMP and PRES are refused with CAL_NOT_VALID -/
theorem test_not_calibrated : (after (.pres .disabled) State.reset).status.word = 0x0040 := by decide
/-- the items of program P3 0 and of E-2, from their text -/
theorem test_assemble :
    assemble "wr D2, 25000 ; raw count" = .ok [0x1761A8] ∧
    assemble "CAL 0x8000, 0x0040, 0x0041, 0x0042" = .ok [0x128000, 0x130040, 0x140041, 0x150042, 0x100001] := by
  decide +kernel
theorem test_assemble_rejects :
    assemble "rd C7" = .error .badRegister ∧ assemble "wr D2, 65536" = .error .outOfRange := by decide +kernel

/-! ### Witnesses: what meets the hypotheses of each statement -/

/-- a host with a program of one item -/
def oneItem (s : State) (b : BusItem) : State := { s with program := [b] }

/-- the same, with the host's index at that item -/
def oneItemAt0 (s : State) (b : BusItem) : State := { s with program := [b], pc := 0 }

/-- a calibrated block with a reset due -/
def withReset : State := { setA with resets := [0] }

theorem witness_BusDecodingIsTotal :
    (0x0FFFFF : BusItem).getLsbD 20 = false ∧ (0x100000 : BusItem).getLsbD 20 = true := by decide
theorem witness_EncodeOfDecodeIsTheWord :
    decode (.cmd 0x0013) = .ok (.pres .enabled) ∧ (0x1FFFFF : BusItem).getLsbD 20 = true ∧
    (0x000001 : BusItem).getLsbD 20 = false := by decide
theorem witness_ReadEmitsTheRegister : (0x0FFFFF : BusItem).getLsbD 20 = false := by decide
theorem witness_StepRunsTheNextItem :
    withReset.resetDue = true ∧ ({ setA with resets := [setA.pc + 1] } : State).resetDue = false ∧
    (oneItem State.reset 0x174E20).resetDue = false ∧
    (oneItem State.reset 0x174E20).program[(oneItem State.reset 0x174E20).pc]? = some 0x174E20 ∧
    decode (.bus 0x174E20) = .ok (.wr .d2 0x4E20) := by decide
theorem witness_StepRunsTheCarriedCommand :
    (oneItem State.reset (carrier 0x0012)).resetDue = false ∧
    (oneItem State.reset (carrier 0x0012)).program[(oneItem State.reset (carrier 0x0012)).pc]? =
      some (carrier 0x0012) ∧
    decode (.cmd 0x0012) = .ok (.temp .enabled) := by decide
theorem witness_StepStopsAfterTheLastItem :
    State.reset.resetDue = false ∧ State.reset.program.length ≤ State.reset.pc := by decide
theorem witness_PlacedWordIsRunByTheNextStep :
    decodeTableWord 16 0x0002 = some (.temp .disabled) ∧ decodeTableWord 24 0x1FFFFF = some (.wr .c6 0xFFFF) := by
  decide
theorem witness_ResetGivesEveryRegisterItsResetValue :
    (∃ t, step withReset = .next t ∧ withReset.status.calValid = true ∧ t.status.calValid = false) ∧
    (∃ t, setA.status.calValid = true ∧ exec .loadcal setA = .next t) ∧
    ∃ t, exec .loadcal withReset.applyReset = .next t :=
  ⟨⟨_, rfl, by decide, by decide⟩, ⟨_, by decide, rfl⟩, _, rfl⟩
theorem witness_StagingWritesStoreAndCommandWritesRun :
    Reg.w0 ∈ [Reg.w0, .w1, .w2, .w3, .d1, .d2] ∧ Reg.d2 ∈ [Reg.w0, .w1, .w2, .w3, .d1, .d2] ∧ Reg.cmd ≠ Reg.w0 ∧
    ∃ t, exec (.wr .c1 0x1234) setA = .next t ∧ Reg.c1 ≠ Reg.cmd :=
  ⟨by decide, by decide, by decide, _, rfl, by decide⟩
theorem witness_WriteStoresExecutesOrIsIgnored :
    Reg.status ∈ [Reg.status, .resHi, .resLo, .c1, .c2, .c3, .c4, .c5, .c6] ∧
    Reg.c6 ∈ [Reg.status, .resHi, .resLo, .c1, .c2, .c3, .c4, .c5, .c6] ∧
    (0x1761A8 : BusItem).getLsbD 20 = true := by decide
theorem witness_StatusLayoutAndWriters :
    (∃ t, step (oneItem State.reset 0x100000) = .next t ∧ t.status ≠ (oneItem State.reset 0x100000).status) ∧
    ∃ t, step withReset = .next t ∧ t.status ≠ withReset.status :=
  ⟨⟨_, rfl, by decide⟩, _, rfl, by decide⟩
theorem witness_StatusFieldsAfterEveryCommand :
    decode (.cmd 0x0012) = .ok (.temp .enabled) ∧ decode (.cmd 0x0003) = .ok (.pres .disabled) ∧
    decode (.cmd 0x0001) = .ok .loadcal ∧ decode (.cmd 0x0011) = .error .loadcalWithMode ∧
    ∃ t, exec .loadcal State.reset = .next t ∧ t.status ≠ State.reset.status :=
  ⟨by decide, by decide, by decide, by decide, _, rfl, by decide⟩
theorem witness_CalValidIsSetByLoadcalAndClearedByReset :
    (∃ t, exec .loadcal State.reset = .next t ∧ State.reset.status.calValid = false ∧ t.status.calValid = true) ∧
    (∃ t, exec (.wr .cmd 0) setA = .next t ∧ setA.status.calValid = true) ∧
    (∃ t, step withReset = .next t ∧ withReset.status.calValid = true ∧ t.status.calValid = false) :=
  ⟨⟨_, rfl, by decide, by decide⟩, ⟨_, rfl, by decide⟩, ⟨_, rfl, by decide, by decide⟩⟩
theorem witness_StatusShowsOnlyTheElevenKeyWords : MachineInv (after (.temp .enabled) (setT 0x521F)) := by decide
theorem witness_FailedCommandChangesOnlyStatusBits7To1 : Reg.resLo ≠ Reg.status := by decide
theorem witness_IllegalCommandWordsRaiseIllegalCmd :
    (0x0022 : Word).extractLsb' 5 11 ≠ 0 ∧ (0x000F : Word).extractLsb' 0 4 ∉ [(0x1 : BitVec 4), 0x2, 0x3] ∧
    ((0x0011 : Word).extractLsb' 0 4 = 0x1 ∧ (0x0011 : Word).getLsbD 4 = true) := by decide
theorem witness_ComputingBeforeCalibrationRaisesCalNotValid :
    State.reset.status.calValid = false ∧
    (Instr.wr .cmd (encodeCmd (.pres .enabled))) ∈
      [Instr.temp .enabled, .pres .enabled, .wr .cmd (encodeCmd (.temp .enabled)),
       .wr .cmd (encodeCmd (.pres .enabled))] := by decide
theorem witness_SecondLoadcalRaisesCalLocked :
    setA.status.calValid = true ∧ Instr.wr .cmd 0x0001 ∈ [Instr.loadcal, .wr .cmd 0x0001] ∧
    ∃ t, step (oneItemAt0 setA 0x100001) = .next t ∧ (oneItemAt0 setA 0x100001).status.calValid = true ∧
      t ≠ (oneItemAt0 setA 0x100001).applyReset :=
  ⟨by decide, by decide, _, rfl, by decide, by decide⟩
theorem witness_EncodingIsCheckedBeforeCalibration :
    (∃ t, exec (.wr .cmd 0x0022) State.reset = .next t ∧ t.status.err = .illegalCmd) ∧
    (∃ t, exec (.wr .cmd 0x0012) State.reset = .next t ∧ t.status.err = .calNotValid) ∧
    (∃ t, exec (.wr .cmd 0x0001) setA = .next t ∧ t.status.err = .calLocked) :=
  ⟨⟨_, rfl, by decide⟩, ⟨_, rfl, by decide⟩, ⟨_, rfl, by decide⟩⟩
theorem witness_CalibrationWordsAreReadByLoadcalOnly :
    (∃ t, exec (.wr .cmd 0x0013) setA = .next t) ∧
    (∃ t, exec (.pres .enabled) setA = .next t ∧
      ({ setA.staging with w0 := 0xFFFF } : Staging).d1 = setA.staging.d1 ∧
      ({ setA.staging with w0 := 0xFFFF } : Staging).d2 = setA.staging.d2) ∧
    Reg.w3 ∈ [Reg.w0, .w1, .w2, .w3] :=
  ⟨⟨_, rfl⟩, ⟨_, rfl, rfl, rfl⟩, by decide⟩
theorem witness_RawCountsAreStoredAsPatternsAndReadSigned :
    Reg.d1 ∈ [Reg.d1, .d2] ∧ Reg.d2 ∈ [Reg.d1, .d2] ∧ ∃ t, exec (.wr .cmd 0x0012) setA = .next t :=
  ⟨by decide, by decide, _, rfl⟩
theorem witness_ResultIsWrittenOnlyBySuccessfulTempAndPres :
    setA.status.calValid = true ∧ ∃ t, exec (.pres .enabled) setA = .next t ∧ t.result ≠ setA.result :=
  ⟨by decide, _, rfl, by decide⟩
theorem witness_CoefficientsReadZeroExtendedAndIgnoreWrites :
    (0xA : Addr) ∈ [(0xA : Addr), 0xB, 0xC, 0xD, 0xE, 0xF] ∧
    (0xF : Addr) ∈ [(0xA : Addr), 0xB, 0xC, 0xD, 0xE, 0xF] := by decide
theorem witness_CoefficientsChangeOnlyByLoadcalOrReset :
    (∃ t, step (oneItem (staged 0x8001 0 0 0 0 0) 0x100001) = .next t ∧
      t.coeffs ≠ (oneItem (staged 0x8001 0 0 0 0 0) 0x100001).coeffs) ∧
    (∃ t, step withReset = .next t ∧ t.coeffs ≠ withReset.coeffs) :=
  ⟨⟨_, rfl, by decide⟩, ⟨_, rfl, by decide⟩⟩
theorem witness_CommandsLeaveTheRestUnchanged :
    isCommand (.wr .cmd 0) = true ∧ isCommand .loadcal = true ∧ isCommand (.temp .enabled) = true ∧
    isCommand (.pres .disabled) = true := by decide
theorem witness_LoadcalUnpacksTheCalibrationWords :
    State.reset.status.calValid = false ∧ setA.status.calValid = true ∧ (0x8001 : Word).extractLsb' 5 11 ≠ 0 ∧
    ∃ t, exec (.wr .cmd 0x0011) State.reset = .next t :=
  ⟨by decide, by decide, by decide, _, rfl⟩
theorem witness_BandThresholdsAreStrict :
    setA.status.calValid = true ∧ (199 : Int) < 200 ∧ (451 : Int) > 450 := by decide
theorem witness_TempComputesTheCompensatedTemperature :
    (setT 0x521F).status.calValid = true ∧ (setT 0x521F).firstTemp = 199 ∧ (setT 0x5220).firstTemp = 200 ∧
    (setT 0x606A).firstTemp = 450 ∧ (setT 0x6078).firstTemp = 451 ∧ State.reset.status.calValid = false ∧
    (0x0022 : Word).extractLsb' 5 11 ≠ 0 := by decide
theorem witness_PresComputesTheCompensatedPressure :
    setA.status.calValid = true ∧ setA.firstTemp = -280 ∧ setA.firstPres = 8231 ∧
    State.reset.status.calValid = false ∧ (0x0023 : Word).extractLsb' 5 11 ≠ 0 := by decide
theorem witness_TempResultIsReadBackExactly :
    (setT 0x8000).status.calValid = true ∧
    tempResult .enabled (setT 0x8000).coeffs.c6.toNat (setT 0x8000).firstTemp = -9722 ∧
    tempResult .enabled (setT 0x5220).coeffs.c6.toNat (setT 0x5220).firstTemp = 200 := by decide
theorem witness_PresResultIsReadBackExactly :
    setA.status.calValid = true ∧ presResult .enabled setA.coeffs.c6.toNat setA.firstTemp setA.firstPres = 8119 := by
  decide
theorem witness_TemperatureIntermediatesStayInTheirRanges :
    ((-32768 : Int) ≤ -32768 ∧ (-32768 : Int) ≤ 32767) ∧ ((0 : Int) ≤ 2047 ∧ (2047 : Int) ≤ 2047) ∧
    ((0 : Int) ≤ 63 ∧ (63 : Int) ≤ 63) ∧
    bandOf (firstTemp (deltaT (-32768) 2047) 63) = .low ∧ bandOf (firstTemp (deltaT 32767 0) 63) = .high := by decide
theorem witness_PressureIntermediatesStayInTheirRanges :
    ((-32768 : Int) ≤ 32767 ∧ (32767 : Int) ≤ 32767) ∧ ((0 : Int) ≤ 32767 ∧ (32767 : Int) ≤ 32767) ∧
    ((0 : Int) ≤ 4095 ∧ (4095 : Int) ≤ 4095) ∧ ((0 : Int) ≤ 1023 ∧ (1023 : Int) ≤ 1023) ∧
    ((0 : Int) ≤ 2047 ∧ (2047 : Int) ≤ 2047) ∧ ((0 : Int) ≤ 63 ∧ (63 : Int) ≤ 63) ∧
    bandOf (firstTemp (deltaT (-32768) 2047) 63) = .low ∧ bandOf (firstTemp (deltaT 32767 0) 63) = .high := by decide
theorem witness_ExtremeResultsAreExactAndAttained :
    ((-32768 : Int) ≤ -32768 ∧ (-32768 : Int) ≤ 32767) ∧ ((0 : Int) ≤ 0 ∧ (0 : Int) ≤ 1023) ∧
    ((0 : Int) ≤ 2047 ∧ (2047 : Int) ≤ 2047) ∧ ((0 : Int) ≤ 63 ∧ (63 : Int) ≤ 63) := by decide
theorem witness_CorrectionOnlyLowersAndTempIsMonotone :
    (0 : Int) ≤ 0 ∧ bandOf 450 = .inBand ∧ (21023 : Int) ≤ 21024 := by decide
theorem witness_TempDependsOnlyOnItsOperands :
    setA.status.calValid = true ∧ ({ setA with result := 7 } : State).status.calValid = true ∧
    ({ setA with result := 7 } : State).staging.d2 = setA.staging.d2 ∧
    ({ setA with result := 7 } : State).coeffs = setA.coeffs ∧
    ({ setA with result := 7 } : State).result ≠ setA.result := by decide
theorem witness_PresDependsOnlyOnItsOperands :
    setA.status.calValid = true ∧ ({ setA with result := 7 } : State).staging.d1 = setA.staging.d1 ∧
    ({ setA with result := 7 } : State).staging.d2 = setA.staging.d2 ∧
    ({ setA with result := 7 } : State).coeffs = setA.coeffs ∧
    Reg.c1 ∈ [Reg.status, .resHi, .resLo, .c1, .c2, .c3, .c4, .c5, .c6] := by decide
theorem witness_PresAndTempAgreeOnTheBand : bandOf (setT 0x5220).firstTemp = .inBand := by decide
theorem witness_ResultSurvivesEverythingButTempPresAndReset :
    decode (.cmd 0x0001) = .ok .loadcal ∧ decode (.cmd 0x0000) = .error .illegalOp ∧
    State.reset.status.calValid = false ∧ Reg.d2 ≠ Reg.cmd ∧
    (∃ t, step (oneItemAt0 setA 0x100013) = .next t ∧ t.result ≠ (oneItemAt0 setA 0x100013).result) ∧
    ∃ t, step ({ withReset with result := 7 } : State) = .next t ∧
      t.result ≠ ({ withReset with result := 7 } : State).result :=
  ⟨by decide, by decide, by decide, by decide, ⟨_, rfl, by decide⟩, _, rfl, by decide⟩
theorem witness_ThirtySevenBitsRealiseTheTemperatureExactly : 37 ≤ 37 := by decide
theorem witness_ThirtySevenBitsRealiseThePressureExactly : 37 ≤ 64 := by decide
theorem witness_EveryStepKeepsTheInvariant :
    MachineInv (oneItem (staged 0x8001 0 0 0 0 0) 0x100001) ∧
    ∃ t, step (oneItem (staged 0x8001 0 0 0 0 0) 0x100001) = .next t :=
  ⟨by decide, _, rfl⟩
theorem witness_EveryProgramRunsToItsEnd :
    (oneItem State.reset 0x100000).resets = [] ∧
    (oneItem State.reset 0x100000).pc + 1 = (oneItem State.reset 0x100000).program.length := by decide
theorem witness_CalibrationIsImmutableUntilReset :
    ∃ t : State, setA.status.calValid = true ∧ ({ setA with program := [0, 0x100001] } : State).resets = [] ∧
      core.run 1 { setA with program := [0, 0x100001] } = .next t :=
  ⟨_, by decide, by decide, rfl⟩
theorem witness_AssembledItemsDecodeToTheirInstructions :
    (AsmLine.wr (.number 15) 65535).wellFormed = true ∧ (AsmLine.wr (.number 16) 0).wellFormed = false ∧
    ((-32768 : Int) ≤ -32768 ∧ (-32768 : Int) ≤ 65535) ∧ ((-32768 : Int) ≤ 65535 ∧ (65535 : Int) ≤ 65535) ∧
    ¬ ((-32768 : Int) ≤ -32769 ∧ (-32769 : Int) ≤ 65535) ∧ ¬ ((-32768 : Int) ≤ 65536 ∧ (65536 : Int) ≤ 65535) ∧
    (15 : Nat) ≤ 15 ∧ 15 < (16 : Nat) := by decide

end Sys2Proof.Tests
end

section
/-! PROOF. Fields of encoded items: the legal command words, and the BUS item a write was decoded from. -/

namespace Sys2Proof

/-- A BUS item is its three fields, put together (`30_encoding.md` R71). -/
theorem busItem_fields (b : BusItem) : BitVec.ofBool (busWE b) ++ busA b ++ busDATA b = b := by
  have hWE : BitVec.ofBool (busWE b) = b.extractLsb' 20 1 := by
    ext i hi
    obtain rfl : i = 0 := by omega
    simp [busWE]
  rw [hWE, busA, busDATA, BitVec.extractLsb'_append_extractLsb'_eq_extractLsb' (by decide),
    BitVec.extractLsb'_append_extractLsb'_eq_extractLsb' (by decide)]
  exact BitVec.extractLsb'_eq_self

/-- A command word is its three fields, put together (`30_encoding.md` R73). -/
theorem cmdWord_fields (v : Word) : cmdRSV v ++ BitVec.ofBool (cmdMODE v) ++ cmdOP v = v := by
  have hMODE : BitVec.ofBool (cmdMODE v) = v.extractLsb' 4 1 := by
    ext i hi
    obtain rfl : i = 0 := by omega
    simp [cmdMODE]
  rw [hMODE, cmdRSV, cmdOP, BitVec.extractLsb'_append_extractLsb'_eq_extractLsb' (by decide),
    BitVec.extractLsb'_append_extractLsb'_eq_extractLsb' (by decide)]
  exact BitVec.extractLsb'_eq_self

@[simp] theorem bit_ofBit (b : Bool) : (Mode.ofBit b).bit = BitVec.ofBool b := by cases b <;> rfl

/-- A word with RSV = 0 is built from its MODE and OP (`30_encoding.md` R73). -/
theorem eq_cmdWord_of_cmdRSV {v : Word} (h : cmdRSV v = 0) : v = cmdWord (BitVec.ofBool (cmdMODE v)) (cmdOP v) := by
  conv_lhs => rw [← cmdWord_fields v, h]
  rfl

@[simp] theorem decodeCmd_encodeCmd (c : Command) : decodeCmd (encodeCmd c) = .ok c := by
  cases c with
  | loadcal => decide
  | temp m => cases m <;> decide
  | pres m => cases m <;> decide

/-- The word of each command is the only word that spells it (`30_encoding.md` R74). -/
theorem decodeCmd_eq_ok_iff {v : Word} {c : Command} : decodeCmd v = .ok c ↔ v = encodeCmd c := by
  constructor
  · intro h
    unfold decodeCmd at h
    split_ifs at h with hRSV hOP hMODE hOP hOP
    all_goals
      obtain rfl := Except.ok.inj h
      have hv := eq_cmdWord_of_cmdRSV (not_not.mp hRSV)
      rw [hOP] at hv
    · simpa [encodeCmd, Mode.bit, hMODE] using hv
    · simpa [encodeCmd] using hv
    · simpa [encodeCmd] using hv
  · rintro rfl
    exact decodeCmd_encodeCmd c

theorem encodeCmd_injective {c d : Command} (h : encodeCmd c = encodeCmd d) : c = d :=
  Except.ok.inj ((decodeCmd_encodeCmd c).symm.trans (h ▸ decodeCmd_encodeCmd d))

theorem toInstr_injective {c d : Command} (h : c.toInstr = d.toInstr) : c = d := by
  match c, d, h with
  | .loadcal, .loadcal, _ => rfl
  | .temp _, .temp _, rfl => rfl
  | .pres _, .pres _, rfl => rfl

/-- Decoding a word of format CMD is decoding its command. -/
theorem decode_cmd_eq_ok_iff {v : Word} {c : Command} : decode (.cmd v) = .ok c.toInstr ↔ decodeCmd v = .ok c := by
  cases hd : decodeCmd v with
  | error e => simp [decode, hd]
  | ok d =>
    simp only [decode, hd, Except.ok.injEq]
    exact ⟨toInstr_injective, congrArg Command.toInstr⟩

theorem decode_cmd_eq_error_iff {v : Word} {e : DecodeError} :
    decode (.cmd v) = .error e ↔ decodeCmd v = .error e := by
  cases hd : decodeCmd v <;> simp [decode, hd]

/-- A BUS item that decodes to a write of CMD is the carrier of the written word. -/
theorem eq_carrier_of_decodeBus {b : BusItem} {v : Word} (h : decodeBus b = .wr .cmd v) : b = carrier v := by
  unfold decodeBus at h
  split_ifs at h with hWE
  obtain ⟨hA, rfl⟩ := Instr.wr.inj h
  have hA' : busA b = Reg.addr .cmd := by rw [← hA, addr_ofAddr]
  rw [carrier, busItem, ← hA']
  conv_lhs => rw [← busItem_fields b, hWE]
  rfl

end Sys2Proof
end

section
/-! PROOF. STATUS: the fields of its read value, its band and CORR, and what each command leaves in it. -/

namespace Sys2Proof.Machine

/-- The 16-bit pattern of the five fields of STATUS, given by their codes (`10_state.md` R22). -/
def statusPattern (err : BitVec 3) (corr : Bool) (band : BitVec 2) (resValid calValid : Bool) : Word :=
  (err.setWidth 16 <<< 5) ||| (bit16 corr <<< 4) ||| (band.setWidth 16 <<< 2) ||| (bit16 resValid <<< 1)
    ||| bit16 calValid

theorem Status.word_eq_statusPattern (st : Status) :
    st.word = statusPattern st.err.code st.corr st.band.code st.resValid st.calValid := rfl

/-- The fields of the pattern are the codes it was built from; the codes have 256 combinations. -/
theorem statusPattern_fields : ∀ (err : BitVec 3) (corr : Bool) (band : BitVec 2) (resValid calValid : Bool),
    let p := statusPattern err corr band resValid calValid
    p.getLsbD 0 = calValid ∧ p.getLsbD 1 = resValid ∧ p.extractLsb' 2 2 = band ∧ p.getLsbD 4 = corr ∧
      p.extractLsb' 5 3 = err ∧ p.extractLsb' 8 8 = 0 := by
  decide

theorem bandOf_eq_low_iff {t : Int} : bandOf t = .low ↔ t < 200 := by
  unfold bandOf
  split_ifs <;> simp [*]

theorem bandOf_eq_high_iff {t : Int} : bandOf t = .high ↔ 450 < t := by
  unfold bandOf
  split_ifs <;> simp <;> omega

theorem bandOf_eq_inBand_iff {t : Int} : bandOf t = .inBand ↔ 200 ≤ t ∧ t ≤ 450 := by
  unfold bandOf
  split_ifs <;> simp <;> omega

theorem corrOf_eq_decide (m : Mode) (b : Band) : corrOf m b = decide (m = .enabled ∧ b ≠ .inBand) := by
  cases m <;> cases b <;> rfl

/-- CORR is 1 exactly in mode Enabled with a first-order TEMP outside 200..450 (`10_state.md` R26). -/
theorem corrOf_bandOf (m : Mode) (t : Int) :
    corrOf m (bandOf t) = decide (m = .enabled ∧ (t < 200 ∨ 450 < t)) := by
  have hOut : bandOf t ≠ .inBand ↔ t < 200 ∨ 450 < t := by
    rw [ne_eq, bandOf_eq_inBand_iff]
    omega
  rw [corrOf_eq_decide]
  exact decide_eq_decide.mpr (and_congr_right fun _ => hOut)

/-- STATUS after TEMP (`42_temperature.md` R147). -/
theorem tempCmd_status (m : Mode) (s : State) :
    (tempCmd m s).status =
      if s.status.calValid then s.status.computed m (bandOf s.firstTemp) else s.status.failed .calNotValid := by
  cases h : s.status.calValid with
  | true => simp [tempCmd_of_calValid m h]
  | false => simp [tempCmd_of_not_calValid m h]

/-- STATUS after PRES is STATUS after TEMP (`43_pressure.md` R178). -/
theorem presCmd_status (m : Mode) (s : State) : (presCmd m s).status = (tempCmd m s).status := by
  cases h : s.status.calValid with
  | true => simp [tempCmd_of_calValid m h, presCmd_of_calValid m h]
  | false => simp [tempCmd_of_not_calValid m h, presCmd_of_not_calValid m h]

/-- STATUS after LOADCAL (`41_unpack.md` R120). -/
theorem loadcalCmd_status (s : State) :
    (loadcalCmd s).status = if s.status.calValid then s.status.failed .calLocked else Status.calibrated := by
  cases h : s.status.calValid with
  | true => simp [loadcalCmd_of_calValid h]
  | false => simp [loadcalCmd_of_not_calValid h]

/-- No command clears CAL_VALID, and a command that sets it is LOADCAL (`10_state.md` R23). -/
theorem executeCmd_calValid (v : Word) (s : State) :
    (executeCmd v s).status.calValid = s.status.calValid ∨
      (decodeCmd v = .ok .loadcal ∧ (executeCmd v s).status.calValid = true) := by
  rcases executeCmd_cases v s with ⟨c, h, -⟩ | ⟨-, hd, h⟩ | ⟨-, m, -, h⟩ | ⟨-, m, -, h⟩
  · simp [h]
  · simp [h, hd]
  · simp [h]
  · simp [h]

end Sys2Proof.Machine
end

section
/-! PROOF. What an instruction can do: issue a command word, read, or store; and what every instruction leaves. -/

namespace Sys2Proof.Machine

/-- The command word an instruction writes to CMD, if it does so. -/
def commandWord : Instr → Option Word
  | .wr .cmd v => some v
  | .loadcal => some (encodeCmd .loadcal)
  | .temp m => some (encodeCmd (.temp m))
  | .pres m => some (encodeCmd (.pres m))
  | .wr _ _ => none
  | .rd _ => none

theorem commandWord_eq_some_iff {i : Instr} {v : Word} :
    commandWord i = some v ↔ i = .wr .cmd v ∨ ∃ c : Command, i = c.toInstr ∧ v = encodeCmd c := by
  constructor
  · intro h
    cases i with
    | rd r => cases h
    | wr r w => cases r <;> cases h; exact .inl rfl
    | loadcal => exact .inr ⟨.loadcal, rfl, (Option.some.inj h).symm⟩
    | temp m => exact .inr ⟨.temp m, rfl, (Option.some.inj h).symm⟩
    | pres m => exact .inr ⟨.pres m, rfl, (Option.some.inj h).symm⟩
  · rintro (rfl | ⟨c, rfl, rfl⟩)
    · rfl
    · cases c <;> rfl

/-- An instruction that issues the word of a command is that command or the write of its word. -/
theorem eq_of_commandWord {i : Instr} {v : Word} {c : Command} (h : commandWord i = some v)
    (hd : decodeCmd v = .ok c) : i = c.toInstr ∨ i = .wr .cmd (encodeCmd c) := by
  obtain rfl := decodeCmd_eq_ok_iff.mp hd
  rcases commandWord_eq_some_iff.mp h with rfl | ⟨d, rfl, hcd⟩
  · exact .inr rfl
  · exact .inl (congrArg Command.toInstr (encodeCmd_injective hcd).symm)

theorem isCommand_of_commandWord {i : Instr} {v : Word} (h : commandWord i = some v) : isCommand i = true := by
  rcases commandWord_eq_some_iff.mp h with rfl | ⟨c, rfl, -⟩
  · rfl
  · cases c <;> rfl

/-- A BUS item whose instruction issues a command word is the carrier of that word. -/
theorem eq_carrier_of_commandWord {b : BusItem} {v : Word} (h : commandWord (decodeBus b) = some v) :
    b = carrier v := by
  rcases commandWord_eq_some_iff.mp h with hb | ⟨c, hb, -⟩
  · exact eq_carrier_of_decodeBus hb
  · unfold decodeBus at hb
    split_ifs at hb <;> cases c <;> cases hb

theorem exec_wr_cmd (v : Word) (s : State) : exec (.wr .cmd v) s = .next (executeCmd v s).advance := by
  rw [exec_wr, writeReg_cmd]

/-- Everything an instruction can do, from every state: execute a command word, emit a register, or store
(`40_bus_access.md` R100 to R102). -/
theorem exec_cases (i : Instr) (s : State) :
    (∃ v, commandWord i = some v ∧ exec i s = .next (executeCmd v s).advance) ∨
    (∃ r, i = .rd r ∧ exec i s = .next (s.emit (s.readReg r)).advance) ∨
    (∃ r v, r ≠ .cmd ∧ i = .wr r v ∧ exec i s = .next (s.storeReg r v).advance) := by
  have hCommand (c : Command) : exec c.toInstr s = .next (executeCmd (encodeCmd c) s).advance := by
    rw [exec_command, executeCmd_of_ok (decodeCmd_encodeCmd c)]
  cases i with
  | rd r => exact .inr (.inl ⟨r, rfl, rfl⟩)
  | wr r v =>
    by_cases hr : r = .cmd
    · subst hr
      exact .inl ⟨v, rfl, exec_wr_cmd v s⟩
    · exact .inr (.inr ⟨r, v, hr, rfl, by rw [exec_wr, writeReg_of_ne_cmd hr]⟩)
  | loadcal => exact .inl ⟨_, rfl, hCommand .loadcal⟩
  | temp m => exact .inl ⟨_, rfl, hCommand (.temp m)⟩
  | pres m => exact .inl ⟨_, rfl, hCommand (.pres m)⟩

/-- Every instruction completes, goes on to the next item and leaves the host's list and its resets
(`10_state.md` R35). -/
theorem exec_completes (i : Instr) (s : State) :
    ∃ t, exec i s = .next t ∧ t.pc = s.pc + 1 ∧ t.program = s.program ∧ t.resets = s.resets := by
  rcases exec_cases i s with ⟨v, -, h⟩ | ⟨r, -, h⟩ | ⟨r, v, -, -, h⟩
  · obtain ⟨-, hprogram, hpc, -, hresets⟩ := executeCmd_frame v s
    exact ⟨_, h, by simp [hpc], hprogram, hresets⟩
  · exact ⟨_, h, rfl, rfl, rfl⟩
  · obtain ⟨-, -, -, hprogram, hpc, -, hresets⟩ := storeReg_frame s r v
    exact ⟨_, h, by simp [hpc], hprogram, hresets⟩

/-- An instruction runs a command word, or it leaves the coefficients, RESULT and STATUS as they are. -/
theorem exec_command_or_unchanged {i : Instr} {s t : State} (h : exec i s = .next t) :
    (∃ v, commandWord i = some v ∧ t = (executeCmd v s).advance) ∨
      (t.coeffs = s.coeffs ∧ t.result = s.result ∧ t.status = s.status) := by
  rcases exec_cases i s with ⟨v, hv, he⟩ | ⟨r, -, he⟩ | ⟨r, v, -, -, he⟩ <;>
    obtain rfl := Host.Outcome.next.inj (h.symm.trans he)
  · exact .inl ⟨v, hv, rfl⟩
  · exact .inr ⟨rfl, rfl, rfl⟩
  · obtain ⟨hcoeffs, hresult, hstatus, -⟩ := storeReg_frame s r v
    exact .inr ⟨hcoeffs, hresult, hstatus⟩

/-- No instruction clears CAL_VALID (`10_state.md` R23). -/
theorem exec_keeps_calValid {i : Instr} {s t : State} (h : exec i s = .next t) (hs : s.status.calValid = true) :
    t.status.calValid = true := by
  rcases exec_command_or_unchanged h with ⟨v, -, rfl⟩ | ⟨-, -, hstatus⟩
  · rcases executeCmd_calValid v s with hv | ⟨-, hv⟩
    · exact hv.trans hs
    · exact hv
  · rw [hstatus, hs]

/-- A register that a write of it stores reads back as the written pattern (`20_memory.md` R56). -/
theorem readReg_storeReg_same {r : Reg} (hr : r ∈ [Reg.w0, .w1, .w2, .w3, .d1, .d2]) (s : State) (v : Word) :
    (s.storeReg r v).readReg r = v := by
  simp only [List.mem_cons, List.not_mem_nil, or_false] at hr
  rcases hr with rfl | rfl | rfl | rfl | rfl | rfl <;> rfl

theorem readReg_advance (s : State) (r : Reg) : s.advance.readReg r = s.readReg r := by cases r <;> rfl

/-- A write of a staging register completes and is read back (`20_memory.md` R56). -/
theorem exec_wr_readReg {r : Reg} (hr : r ∈ [Reg.w0, .w1, .w2, .w3, .d1, .d2]) (s : State) (v : Word) :
    ∃ t, exec (.wr r v) s = .next t ∧ t.readReg r = v := by
  have hcmd : r ≠ .cmd := by rintro rfl; simp at hr
  exact ⟨_, by rw [exec_wr, writeReg_of_ne_cmd hcmd], by rw [readReg_advance, readReg_storeReg_same hr]⟩

/-- A write of a read-only register only goes on to the next item (`20_memory.md` R57). -/
theorem exec_wr_readOnly {r : Reg} (hr : r ∈ [Reg.status, .resHi, .resLo, .c1, .c2, .c3, .c4, .c5, .c6]) (s : State)
    (v : Word) : exec (.wr r v) s = .next s.advance := by
  simp only [List.mem_cons, List.not_mem_nil, or_false] at hr
  rcases hr with rfl | rfl | rfl | rfl | rfl | rfl | rfl | rfl | rfl <;> rfl

/-- No command writes a staging register (`10_state.md` R28, R29). -/
theorem exec_wr_cmd_staging {s t : State} {v : Word} (h : exec (.wr .cmd v) s = .next t) :
    t.staging = s.staging := by
  obtain rfl := Host.Outcome.next.inj ((exec_wr_cmd v s).symm.trans h)
  exact (executeCmd_frame v s).1

/-- Every register reads 0 after reset (`70_reset_and_hazards.md` R230). -/
theorem readReg_reset (r : Reg) : State.reset.readReg r = 0x0000 := by cases r <;> rfl

/-- TEMP reads of the staging registers D2 only (`10_state.md` R28). -/
theorem tempCmd_setStaging (m : Mode) (s : State) {x : Staging} (h2 : x.d2 = s.staging.d2) :
    tempCmd m (s.setStaging x) = (tempCmd m s).setStaging x := by
  have ht : (s.setStaging x).firstTemp = s.firstTemp := by simp [State.firstTemp, State.dT, State.countD2, h2]
  unfold tempCmd
  rw [ht, State.setStaging_status]
  split <;> rfl

/-- PRES reads of the staging registers D1 and D2 only (`10_state.md` R28). -/
theorem presCmd_setStaging (m : Mode) (s : State) {x : Staging} (h1 : x.d1 = s.staging.d1)
    (h2 : x.d2 = s.staging.d2) : presCmd m (s.setStaging x) = (presCmd m s).setStaging x := by
  have hdT : (s.setStaging x).dT = s.dT := by simp [State.dT, State.countD2, h2]
  have ht : (s.setStaging x).firstTemp = s.firstTemp := by simp [State.firstTemp, hdT]
  have hp : (s.setStaging x).firstPres = s.firstPres := by simp [State.firstPres, State.countD1, hdT, h1]
  unfold presCmd
  rw [ht, hp, State.setStaging_status]
  split <;> rfl

end Sys2Proof.Machine
end

section
/-! PROOF. The ranges of the temperature's and the pressure's intermediates over all inputs (the tables of
`42_temperature.md` section 5 and `43_pressure.md` section 4), each from the one before by interval arithmetic. -/

namespace Sys2Proof.Machine

/-- A shift of a value between two bounds lies between any bounds of their shifts. -/
theorem asr_mem_of {a lo hi lo' hi' : Int} {k : Nat} (h : lo ≤ a ∧ a ≤ hi) (hlo : lo' ≤ asr lo k)
    (hhi : asr hi k ≤ hi') : lo' ≤ asr a k ∧ asr a k ≤ hi' :=
  ⟨hlo.trans (asr_mem k h).1, (asr_mem k h).2.trans hhi⟩

section Temperature

variable {d2 c5 c6 dT t : Int}

theorem ut1_mem (h5 : 0 ≤ c5 ∧ c5 ≤ 2047) : 20224 ≤ ut1 c5 ∧ ut1 c5 ≤ 36600 := by
  unfold ut1 shl
  omega

theorem deltaT_mem (hd : -32768 ≤ d2 ∧ d2 ≤ 32767) (h5 : 0 ≤ c5 ∧ c5 ≤ 2047) :
    -69368 ≤ deltaT d2 c5 ∧ deltaT d2 c5 ≤ 12543 := by
  have := ut1_mem h5
  unfold deltaT
  omega

theorem deltaT_mul_mem (hdT : -69368 ≤ dT ∧ dT ≤ 12543) (h6 : 0 ≤ c6 ∧ c6 ≤ 63) :
    -7838584 ≤ dT * (c6 + 50) ∧ dT * (c6 + 50) ≤ 1417359 :=
  have h : 50 ≤ c6 + 50 ∧ c6 + 50 ≤ 113 := by omega
  mul_mem hdT h (by decide) (by decide)

theorem firstTemp_mem (hdT : -69368 ≤ dT ∧ dT ≤ 12543) (h6 : 0 ≤ c6 ∧ c6 ≤ 63) :
    -7455 ≤ firstTemp dT c6 ∧ firstTemp dT c6 ≤ 1584 := by
  have h : -7655 ≤ asr (dT * (c6 + 50)) 10 ∧ asr (dT * (c6 + 50)) 10 ≤ 1384 :=
    asr_mem_of (deltaT_mul_mem hdT h6) (by decide) (by decide)
  unfold firstTemp
  omega

theorem t2Low_product_mem (h6 : 0 ≤ c6 ∧ c6 ≤ 63) (ht : -7455 ≤ t ∧ t < 200) :
    264 ≤ 11 * (c6 + 24) * (200 - t) * (200 - t) ∧ 11 * (c6 + 24) * (200 - t) * (200 - t) ≤ 56079266925 := by
  have hc : 264 ≤ 11 * (c6 + 24) ∧ 11 * (c6 + 24) ≤ 957 := by omega
  have hd : 1 ≤ 200 - t ∧ 200 - t ≤ 7655 := by omega
  have hcd : 264 ≤ 11 * (c6 + 24) * (200 - t) ∧ 11 * (c6 + 24) * (200 - t) ≤ 7325835 :=
    mul_mem hc hd (by decide) (by decide)
  exact mul_mem hcd hd (by decide) (by decide)

theorem t2Low_mem (h6 : 0 ≤ c6 ∧ c6 ≤ 63) (ht : -7455 ≤ t ∧ t < 200) : 0 ≤ t2Low c6 t ∧ t2Low c6 t ≤ 53481 :=
  asr_mem_of (t2Low_product_mem h6 ht) (by decide) (by decide)

theorem t2High_product_mem (h6 : 0 ≤ c6 ∧ c6 ≤ 63) (ht : 450 < t ∧ t ≤ 1584) :
    72 ≤ 3 * (c6 + 24) * (450 - t) * (450 - t) ∧ 3 * (c6 + 24) * (450 - t) * (450 - t) ≤ 335634516 := by
  have hc : 72 ≤ 3 * (c6 + 24) ∧ 3 * (c6 + 24) ≤ 261 := by omega
  have hd : -1134 ≤ 450 - t ∧ 450 - t ≤ -1 := by omega
  have hcd : -295974 ≤ 3 * (c6 + 24) * (450 - t) ∧ 3 * (c6 + 24) * (450 - t) ≤ -72 :=
    mul_mem hc hd (by decide) (by decide)
  exact mul_mem hcd hd (by decide) (by decide)

theorem t2High_mem (h6 : 0 ≤ c6 ∧ c6 ≤ 63) (ht : 450 < t ∧ t ≤ 1584) : 0 ≤ t2High c6 t ∧ t2High c6 t ≤ 320 :=
  asr_mem_of (t2High_product_mem h6 ht) (by decide) (by decide)

/-- The result of TEMP: the first-order value, corrected or not (`42_temperature.md` R147). -/
theorem tempResult_cases (m : Mode) (c6 t : Int) :
    tempResult m c6 t = t ∨ (t < 200 ∧ tempResult m c6 t = t - t2Low c6 t) ∨
      (450 < t ∧ tempResult m c6 t = t - t2High c6 t) := by
  cases m with
  | disabled => exact .inl rfl
  | enabled =>
    cases hb : bandOf t with
    | inBand => exact .inl (by simp [tempResult, hb])
    | low => exact .inr (.inl ⟨bandOf_eq_low_iff.mp hb, by simp [tempResult, hb]⟩)
    | high => exact .inr (.inr ⟨bandOf_eq_high_iff.mp hb, by simp [tempResult, hb]⟩)

theorem tempResult_mem (m : Mode) (h6 : 0 ≤ c6 ∧ c6 ≤ 63) (ht : -7455 ≤ t ∧ t ≤ 1584) :
    -60936 ≤ tempResult m c6 t ∧ tempResult m c6 t ≤ 1584 := by
  rcases tempResult_cases m c6 t with h | ⟨hlow, h⟩ | ⟨hhigh, h⟩
  · omega
  · have := t2Low_mem h6 ⟨ht.1, hlow⟩
    omega
  · have := t2High_mem h6 ⟨hhigh, ht.2⟩
    omega

end Temperature

section Pressure

variable {d1 c1 c2 c3 c4 c6 dT t off sens x t2 p : Int}

theorem pressOff_product_mem (h4 : 0 ≤ c4 ∧ c4 ≤ 1023) (hdT : -69368 ≤ dT ∧ dT ≤ 12543) :
    -35447048 ≤ (c4 - 512) * dT ∧ (c4 - 512) * dT ≤ 35516416 :=
  have h : -512 ≤ c4 - 512 ∧ c4 - 512 ≤ 511 := by omega
  mul_mem h hdT (by decide) (by decide)

theorem pressOff_mem (h2 : 0 ≤ c2 ∧ c2 ≤ 4095) (h4 : 0 ≤ c4 ∧ c4 ≤ 1023) (hdT : -69368 ≤ dT ∧ dT ≤ 12543) :
    -8655 ≤ pressOff c2 c4 dT ∧ pressOff c2 c4 dT ≤ 25051 := by
  have h : -8655 ≤ asr ((c4 - 512) * dT) 12 ∧ asr ((c4 - 512) * dT) 12 ≤ 8671 :=
    asr_mem_of (pressOff_product_mem h4 hdT) (by decide) (by decide)
  unfold pressOff
  omega

theorem pressSens_product_mem (h3 : 0 ≤ c3 ∧ c3 ≤ 1023) (hdT : -69368 ≤ dT ∧ dT ≤ 12543) :
    -70963464 ≤ c3 * dT ∧ c3 * dT ≤ 12831489 :=
  mul_mem h3 hdT (by decide) (by decide)

theorem pressSens_mem (h1 : 0 ≤ c1 ∧ c1 ≤ 32767) (h3 : 0 ≤ c3 ∧ c3 ≤ 1023) (hdT : -69368 ≤ dT ∧ dT ≤ 12543) :
    -44725 ≤ pressSens c1 c3 dT ∧ pressSens c1 c3 dT ≤ 69873 := by
  have h : -69301 ≤ asr (c3 * dT) 10 ∧ asr (c3 * dT) 10 ≤ 12530 :=
    asr_mem_of (pressSens_product_mem h3 hdT) (by decide) (by decide)
  unfold pressSens
  omega

theorem pressX_product_mem (hs : -44725 ≤ sens ∧ sens ≤ 69873) (hd : -32768 ≤ d1 ∧ d1 ≤ 32767) :
    -2790448128 ≤ sens * (d1 - 7168) ∧ sens * (d1 - 7168) ≤ 1788678927 :=
  have h : -39936 ≤ d1 - 7168 ∧ d1 - 7168 ≤ 25599 := by omega
  mul_mem hs h (by decide) (by decide)

theorem pressX_mem (hs : -44725 ≤ sens ∧ sens ≤ 69873) (ho : -8655 ≤ off ∧ off ≤ 25051)
    (hd : -32768 ≤ d1 ∧ d1 ≤ 32767) : -195367 ≤ pressX sens off d1 ∧ pressX sens off d1 ≤ 117827 := by
  have h : -170316 ≤ asr (sens * (d1 - 7168)) 14 ∧ asr (sens * (d1 - 7168)) 14 ≤ 109172 :=
    asr_mem_of (pressX_product_mem hs hd) (by decide) (by decide)
  unfold pressX
  omega

theorem pcomp_mem (hx : -195367 ≤ x ∧ x ≤ 117827) : -58553 ≤ pcomp x ∧ pcomp x ≤ 39320 := by
  have h10 : -1953670 ≤ x * 10 ∧ x * 10 ≤ 1178270 := by omega
  have h : -61053 ≤ asr (x * 10) 5 ∧ asr (x * 10) 5 ≤ 36820 := asr_mem_of h10 (by decide) (by decide)
  unfold pcomp
  omega

theorem p2Low_product_mem (h2 : 0 ≤ t2 ∧ t2 ≤ 53481) (hp : -58553 ≤ p ∧ p ≤ 39320) :
    -9955969479 ≤ 3 * t2 * (p - 3500) ∧ 3 * t2 * (p - 3500) ≤ 5747068260 :=
  have h : 0 ≤ 3 * t2 ∧ 3 * t2 ≤ 160443 := by omega
  have h' : -62053 ≤ p - 3500 ∧ p - 3500 ≤ 35820 := by omega
  mul_mem h h' (by decide) (by decide)

theorem p2Low_mem (h2 : 0 ≤ t2 ∧ t2 ≤ 53481) (hp : -58553 ≤ p ∧ p ≤ 39320) :
    -607665 ≤ p2Low t2 p ∧ p2Low t2 p ≤ 350773 :=
  asr_mem_of (p2Low_product_mem h2 hp) (by decide) (by decide)

theorem p2High_product_mem (h2 : 0 ≤ t2 ∧ t2 ≤ 320) (hp : -58553 ≤ p ∧ p ≤ 39320) :
    -21936960 ≤ t2 * (p - 10000) ∧ t2 * (p - 10000) ≤ 9382400 :=
  have h : -68553 ≤ p - 10000 ∧ p - 10000 ≤ 29320 := by omega
  mul_mem h2 h (by decide) (by decide)

theorem p2High_mem (h2 : 0 ≤ t2 ∧ t2 ≤ 320) (hp : -58553 ≤ p ∧ p ≤ 39320) :
    -2678 ≤ p2High t2 p ∧ p2High t2 p ≤ 1145 :=
  asr_mem_of (p2High_product_mem h2 hp) (by decide) (by decide)

/-- The result of PRES: the first-order value, corrected or not (`43_pressure.md` R176). -/
theorem presResult_cases (m : Mode) (c6 t p : Int) :
    presResult m c6 t p = p ∨ (t < 200 ∧ presResult m c6 t p = p - p2Low (t2Low c6 t) p) ∨
      (450 < t ∧ presResult m c6 t p = p - p2High (t2High c6 t) p) := by
  cases m with
  | disabled => exact .inl rfl
  | enabled =>
    cases hb : bandOf t with
    | inBand => exact .inl (by simp [presResult, hb])
    | low => exact .inr (.inl ⟨bandOf_eq_low_iff.mp hb, by simp [presResult, hb]⟩)
    | high => exact .inr (.inr ⟨bandOf_eq_high_iff.mp hb, by simp [presResult, hb]⟩)

theorem presResult_mem (m : Mode) (h6 : 0 ≤ c6 ∧ c6 ≤ 63) (ht : -7455 ≤ t ∧ t ≤ 1584)
    (hp : -58553 ≤ p ∧ p ≤ 39320) : -409326 ≤ presResult m c6 t p ∧ presResult m c6 t p ≤ 646985 := by
  rcases presResult_cases m c6 t p with h | ⟨hlow, h⟩ | ⟨hhigh, h⟩
  · omega
  · have := p2Low_mem (t2Low_mem h6 ⟨ht.1, hlow⟩) hp
    omega
  · have := p2High_mem (t2High_mem h6 ⟨hhigh, ht.2⟩) hp
    omega

end Pressure

/-! The same of a state's registers, whose widths give the ranges of the inputs. -/

theorem State.dT_mem (s : State) : -69368 ≤ s.dT ∧ s.dT ≤ 12543 :=
  deltaT_mem (sext16_mem _) (zext_mem s.coeffs.c5)

theorem State.firstTemp_mem (s : State) : -7455 ≤ s.firstTemp ∧ s.firstTemp ≤ 1584 :=
  Machine.firstTemp_mem s.dT_mem (zext_mem s.coeffs.c6)

theorem State.firstPres_mem (s : State) : -58553 ≤ s.firstPres ∧ s.firstPres ≤ 39320 := by
  have hOff := pressOff_mem (zext_mem s.coeffs.c2) (zext_mem s.coeffs.c4) s.dT_mem
  have hSens := pressSens_mem (zext_mem s.coeffs.c1) (zext_mem s.coeffs.c3) s.dT_mem
  exact pcomp_mem (pressX_mem hSens hOff (sext16_mem _))

/-- RESULT reads back the result of TEMP exactly (`42_temperature.md` R148). -/
theorem State.toInt_tempResult (s : State) (m : Mode) :
    (trunc32 (tempResult m (zext s.coeffs.c6) s.firstTemp)).toInt = tempResult m (zext s.coeffs.c6) s.firstTemp := by
  have := tempResult_mem m (zext_mem s.coeffs.c6) s.firstTemp_mem
  exact toInt_trunc32 (by omega)

/-- RESULT reads back the result of PRES exactly (`43_pressure.md` R177). -/
theorem State.toInt_presResult (s : State) (m : Mode) :
    (trunc32 (presResult m (zext s.coeffs.c6) s.firstTemp s.firstPres)).toInt =
      presResult m (zext s.coeffs.c6) s.firstTemp s.firstPres := by
  have := presResult_mem m (zext_mem s.coeffs.c6) s.firstTemp_mem s.firstPres_mem
  exact toInt_trunc32 (by omega)

end Sys2Proof.Machine
end

section
/-! PROOF. The obligations of `10_state.md`. -/

namespace Sys2Proof.Machine

/-- Settles O11, by the three things an instruction can do. -/
theorem everyTransactionAdvancesTheIndexByOne : Obligations.EveryTransactionAdvancesTheIndexByOne :=
  exec_completes

/-- A step that changes STATUS is the reset event or the write of a word to CMD (`10_state.md` R22). -/
theorem step_status_writer {s t : State} (h : step s = .next t) (hne : t.status ≠ s.status) :
    t = s.applyReset ∨ ∃ v, s.program[s.pc]? = some (carrier v) := by
  rcases step_cases h with ⟨-, ht⟩ | ⟨-, b, hb, he⟩
  · exact .inl ht
  · rcases exec_command_or_unchanged he with ⟨v, hv, -⟩ | ⟨-, -, hstatus⟩
    · exact .inr ⟨v, eq_carrier_of_commandWord hv ▸ hb⟩
    · exact absurd hstatus hne

/-- Settles O20, from the fields of the pattern and the one inversion of a step. -/
theorem statusLayoutAndWriters : Obligations.StatusLayoutAndWriters := by
  refine ⟨fun st => ?_, by decide, fun s v => exec_wr_readOnly (by decide) s v, fun s t => step_status_writer⟩
  obtain ⟨hcal, hres, hband, hcorr, herr, hhigh⟩ :=
    statusPattern_fields st.err.code st.corr st.band.code st.resValid st.calValid
  rw [← Status.word_eq_statusPattern] at hcal hres hband hcorr herr hhigh
  refine ⟨hcal, hres, hband.trans ?_, hcorr, herr.trans ?_, hhigh⟩
  · cases st.band <;> rfl
  · cases st.err <;> rfl

/-- STATUS after a TEMP, in the fields' values (`10_state.md` R24 to R27). -/
theorem tempCmd_status_fields (m : Mode) (s : State) :
    (tempCmd m s).status =
      if s.status.calValid then
        { calValid := true, resValid := true,
          band := if s.firstTemp < 200 then .low else if 450 < s.firstTemp then .high else .inBand,
          corr := decide (m = .enabled ∧ (s.firstTemp < 200 ∨ 450 < s.firstTemp)), err := .ok }
      else { calValid := false, resValid := false, band := .inBand, corr := false, err := .calNotValid } := by
  rw [tempCmd_status, ← corrOf_bandOf]
  cases h : s.status.calValid with
  | true => simp [Status.computed, bandOf, h]
  | false => simp [Status.failed, h]

/-- STATUS after a LOADCAL, in the fields' values (`10_state.md` R24 to R27). -/
theorem loadcalCmd_status_fields (s : State) :
    (loadcalCmd s).status =
      { calValid := true, resValid := false, band := .inBand, corr := false,
        err := if s.status.calValid then .calLocked else .ok } := by
  rw [loadcalCmd_status]
  cases h : s.status.calValid with
  | true => simp [Status.failed, h]
  | false => simp [Status.calibrated]

/-- Settles O21: the outcome of each command word by what it decodes to; no other instruction writes STATUS. -/
theorem statusFieldsAfterEveryCommand : Obligations.StatusFieldsAfterEveryCommand := by
  refine ⟨fun s v => ?_, fun s t i h hne => ?_, by intro b; cases b <;> decide, rfl, rfl, rfl, rfl⟩
  · refine ⟨_, exec_wr_cmd v s, ?_, ?_, ?_⟩
    · rintro i m hd (rfl | rfl)
      · have hd' : decodeCmd v = .ok (.temp m) := decode_cmd_eq_ok_iff.mp hd
        rw [State.advance_status, executeCmd_of_ok hd']
        exact tempCmd_status_fields m s
      · have hd' : decodeCmd v = .ok (.pres m) := decode_cmd_eq_ok_iff.mp hd
        rw [State.advance_status, executeCmd_of_ok hd']
        exact (presCmd_status m s).trans (tempCmd_status_fields m s)
    · intro hd
      have hd' : decodeCmd v = .ok .loadcal := decode_cmd_eq_ok_iff.mp hd
      rw [State.advance_status, executeCmd_of_ok hd']
      exact loadcalCmd_status_fields s
    · intro e hd
      rw [State.advance_status, executeCmd_of_error (decode_cmd_eq_error_iff.mp hd)]
      rfl
  · rcases exec_command_or_unchanged h with ⟨v, hv, -⟩ | ⟨-, -, hstatus⟩
    · exact .inl (isCommand_of_commandWord hv)
    · exact absurd hstatus hne

/-- An instruction that sets CAL_VALID is LOADCAL or the write of its word (`10_state.md` R23). -/
theorem exec_sets_calValid {s t : State} {i : Instr} (h : exec i s = .next t) (hs : s.status.calValid = false)
    (ht : t.status.calValid = true) : i = .loadcal ∨ i = .wr .cmd 0x0001 := by
  rcases exec_command_or_unchanged h with ⟨v, hv, rfl⟩ | ⟨-, -, hstatus⟩
  · rcases executeCmd_calValid v s with hkeep | ⟨hd, -⟩
    · simp [hkeep, hs] at ht
    · exact eq_of_commandWord hv hd
  · simp [hstatus, hs] at ht

/-- A step that clears CAL_VALID is the reset event (`70_reset_and_hazards.md` R230). -/
theorem step_clears_calValid {s t : State} (h : step s = .next t) (hs : s.status.calValid = true)
    (ht : t.status.calValid = false) : t = s.applyReset := by
  rcases step_cases h with ⟨-, hreset⟩ | ⟨-, b, -, he⟩
  · exact hreset
  · simp [exec_keeps_calValid he hs] at ht

/-- Settles O22, from what an executed command word can do to CAL_VALID. -/
theorem calValidIsSetByLoadcalAndClearedByReset : Obligations.CalValidIsSetByLoadcalAndClearedByReset := by
  refine ⟨fun s t i => exec_sets_calValid, fun s t i => exec_keeps_calValid, fun s t => step_clears_calValid,
    fun s t h hs => ?_, rfl⟩
  obtain rfl := Host.Outcome.next.inj h
  simp [loadcalCmd_of_not_calValid hs]

/-- Settles O29: a store reads back, a command leaves the staging registers, TEMP and PRES read the counts only. -/
theorem calibrationWordsAreReadByLoadcalOnly : Obligations.CalibrationWordsAreReadByLoadcalOnly := by
  have hWords : [Reg.w0, .w1, .w2, .w3] ⊆ [Reg.w0, .w1, .w2, .w3, .d1, .d2] := by decide
  refine ⟨fun s v r hr => exec_wr_readReg (hWords hr) s v, fun s t v => exec_wr_cmd_staging, ?_,
    fun r _ => readReg_reset r⟩
  rintro s t x m i (rfl | rfl) h h1 h2 <;> obtain rfl := Host.Outcome.next.inj h
  · exact congrArg (Host.Outcome.next ∘ State.advance) (tempCmd_setStaging m s h2)
  · exact congrArg (Host.Outcome.next ∘ State.advance) (presCmd_setStaging m s h1 h2)

/-- Settles O30: a store is read back, a command leaves the staging registers, and `sext_16` is the signed reading. -/
theorem rawCountsAreStoredAsPatternsAndReadSigned : Obligations.RawCountsAreStoredAsPatternsAndReadSigned := by
  have hCounts : [Reg.d1, .d2] ⊆ [Reg.w0, .w1, .w2, .w3, .d1, .d2] := by decide
  refine ⟨fun s v r hr => exec_wr_readReg (hCounts hr) s v,
    fun s => ⟨sext16_eq_toInt _, sext16_eq_toInt _⟩, fun s t v h => ?_, fun r _ => readReg_reset r⟩
  rw [exec_wr_cmd_staging h]
  exact ⟨rfl, rfl⟩

/-- An instruction that changes RESULT is a TEMP or PRES of a calibrated block (`10_state.md` R30). -/
theorem exec_result_writer {s t : State} {i : Instr} (h : exec i s = .next t) (hne : t.result ≠ s.result) :
    s.status.calValid = true ∧ ∃ m, i ∈ [Instr.temp m, .pres m, .wr .cmd (encodeCmd (.temp m)),
      .wr .cmd (encodeCmd (.pres m))] := by
  rcases exec_command_or_unchanged h with ⟨v, hv, rfl⟩ | ⟨-, hresult, -⟩
  · rcases executeCmd_cases v s with ⟨c, he, -⟩ | ⟨-, -, he⟩ | ⟨hcal, m, hd, -⟩ | ⟨hcal, m, hd, -⟩
    · simp [he] at hne
    · simp [he] at hne
    · rcases eq_of_commandWord hv hd with rfl | rfl <;> exact ⟨hcal, m, by simp [Command.toInstr]⟩
    · rcases eq_of_commandWord hv hd with rfl | rfl <;> exact ⟨hcal, m, by simp [Command.toInstr]⟩
  · exact absurd hresult hne

/-- Settles O31: the results fit 32 bits over all inputs, and no other instruction writes RESULT. -/
theorem resultIsWrittenOnlyBySuccessfulTempAndPres : Obligations.ResultIsWrittenOnlyBySuccessfulTempAndPres := by
  refine ⟨fun s m hcal => ⟨⟨_, rfl, ?_⟩, ⟨_, rfl, ?_⟩⟩, fun s t i => exec_result_writer, fun s => ⟨rfl, rfl⟩, rfl⟩
  · rw [State.advance_status, State.advance_result, tempCmd_of_calValid m hcal]
    exact ⟨rfl, rfl, s.toInt_tempResult m⟩
  · rw [State.advance_status, State.advance_result, presCmd_of_calValid m hcal]
    exact ⟨rfl, rfl, s.toInt_presResult m⟩

/-- Settles O32: each coefficient is narrower than its register, and a store to it is ignored. -/
theorem coefficientsReadZeroExtendedAndIgnoreWrites : Obligations.CoefficientsReadZeroExtendedAndIgnoreWrites := by
  refine fun s v => ⟨?_, ?_, ?_, ?_, ?_, ?_, fun a ha => ?_⟩
  iterate 6 exact BitVec.toNat_setWidth_of_le (by decide)
  have hReadOnly : ∀ a ∈ [(0xA : Addr), 0xB, 0xC, 0xD, 0xE, 0xF],
      Reg.ofAddr a ∈ [Reg.status, .resHi, .resLo, .c1, .c2, .c3, .c4, .c5, .c6] := by decide
  exact exec_wr_readOnly (hReadOnly a ha) s v

end Sys2Proof.Machine
end

section
/-! PROOF. The obligations of `20_memory.md`, with what a read and a store leave in the register map. -/

namespace Sys2Proof.Machine

/-- Emitting a value changes no register (`20_memory.md` R55). -/
theorem readReg_emit (s : State) (v : Word) (r : Reg) : (s.emit v).readReg r = s.readReg r := by cases r <;> rfl

/-- A register other than the stored one reads as before (`20_memory.md` R56). -/
theorem readReg_storeReg_of_ne {r r' : Reg} (h : r' ≠ r) (s : State) (v : Word) :
    (s.storeReg r v).readReg r' = s.readReg r' := by
  obtain ⟨hcoeffs, hresult, hstatus, -⟩ := storeReg_frame s r v
  cases r' <;> simp only [State.readReg, hcoeffs, hresult, hstatus]
  all_goals cases r <;> simp [State.storeReg] at h ⊢

/-- A write to an address other than CMD stores or is ignored (`40_bus_access.md` R101). -/
theorem exec_wr_of_ne_cmd {r : Reg} (h : r ≠ .cmd) (v : Word) (s : State) :
    exec (.wr r v) s = .next (s.storeReg r v).advance := by
  rw [exec_wr, writeReg_of_ne_cmd h]

/-- Two reads in a row emit what the two registers held before the first (`20_memory.md` R55). -/
theorem exec_rd_rd (s : State) (r r' : Reg) :
    ∃ u, exec (.rd r') (s.emit (s.readReg r)).advance = .next u ∧
      u.trace = s.trace ++ [s.readReg r, s.readReg r'] :=
  ⟨_, exec_rd r' _, by simp [readReg_advance, readReg_emit]⟩

/-- A 32-bit pattern is its two halves, the more significant one first (`20_memory.md` R53). -/
theorem append_halves (x : BitVec 32) : (x.extractLsb' 16 16 ++ x.extractLsb' 0 16 : BitVec (16 + 16)) = x := by
  rw [BitVec.extractLsb'_append_extractLsb'_eq_extractLsb' (by decide)]
  exact BitVec.extractLsb'_eq_self

/-- Settles O15: a store writes one staging register; LOADCAL written twice, from reset, succeeds and is then
refused. -/
theorem stagingWritesStoreAndCommandWritesRun : Obligations.StagingWritesStoreAndCommandWritesRun := by
  refine ⟨fun s r v hr => ?_, fun s t r v h hcmd => ?_, fun s v => ?_, ?_⟩
  · have hcmd : r ≠ .cmd := by rintro rfl; simp at hr
    obtain ⟨hcoeffs, hresult, hstatus, hprogram, hpc, htrace, hresets⟩ := storeReg_frame s r v
    refine ⟨_, exec_wr_of_ne_cmd hcmd v s, ?_, fun r' hne => ?_, hcoeffs, hresult, hstatus, htrace, hprogram,
      hresets, congrArg (· + 1) hpc⟩
    · rw [readReg_advance, readReg_storeReg_same hr]
    · rw [readReg_advance, readReg_storeReg_of_ne hne]
  · obtain rfl := Host.Outcome.next.inj ((exec_wr_of_ne_cmd hcmd v s).symm.trans h)
    obtain ⟨hcoeffs, hresult, hstatus, -⟩ := storeReg_frame s r v
    exact ⟨hcoeffs, hresult, hstatus⟩
  · obtain ⟨-, -, hpc, -⟩ := executeCmd_frame v s
    rw [exec_wr_cmd, State.advance, hpc]
  · exact ⟨State.reset, _, _, 0x0001, exec_wr_cmd _ _, exec_wr_cmd _ _, by decide⟩

/-- Settles O14: a read emits and advances, and no register depends on the trace or the index. -/
theorem readsHaveNoSideEffect : Obligations.ReadsHaveNoSideEffect := by
  intro s r
  obtain ⟨u, hu, htrace⟩ := exec_rd_rd s r r
  exact ⟨_, u, exec_rd r s, hu, rfl, rfl, rfl, rfl, fun r' => by rw [readReg_advance, readReg_emit], htrace, rfl⟩

/-- Settles O18: the second read finds RESULT as the first left it, and the two halves make it up. -/
theorem resultReadsMoreSignificantHalfFirst : Obligations.ResultReadsMoreSignificantHalfFirst := by
  intro s
  obtain ⟨u, hu, htrace⟩ := exec_rd_rd s .resHi .resLo
  exact ⟨_, u, _, _, exec_rd .resHi s, hu, htrace, append_halves s.result, rfl, rfl⟩

end Sys2Proof.Machine
end

section
/-! PROOF. The obligations of `30_encoding.md`: what each format decodes to, and what a
pseudo-instruction expands to. -/

namespace Sys2Proof

theorem decodeBus_of_read {b : BusItem} (h : busWE b = false) : decodeBus b = .rd (Reg.ofAddr (busA b)) := by
  simp [decodeBus, h]

theorem decodeBus_of_write {b : BusItem} (h : busWE b = true) :
    decodeBus b = .wr (Reg.ofAddr (busA b)) (busDATA b) := by
  simp [decodeBus, h]

/-- A CMD word decodes to nothing but the instruction of the command it is the word of. -/
theorem decode_cmd_eq_ok_iff_exists {v : Word} {i : Instr} :
    decode (.cmd v) = .ok i ↔ ∃ c : Command, v = encodeCmd c ∧ i = c.toInstr := by
  constructor
  · intro h
    cases hd : decodeCmd v with
    | ok c =>
      have hi : decode (.cmd v) = .ok c.toInstr := decode_cmd_eq_ok_iff.mpr hd
      exact ⟨c, decodeCmd_eq_ok_iff.mp hd, Except.ok.inj (h.symm.trans hi)⟩
    | error e =>
      have he : decode (.cmd v) = .error e := decode_cmd_eq_error_iff.mpr hd
      exact nomatch h.symm.trans he
  · rintro ⟨c, rfl, rfl⟩
    exact decode_cmd_eq_ok_iff.mpr (decodeCmd_encodeCmd c)

/-- Settles O3, from the two values of WE. -/
theorem busDecodingIsTotal : Obligations.BusDecodingIsTotal :=
  fun _ => ⟨fun hWE => congrArg Except.ok (decodeBus_of_read hWE),
    fun hWE => congrArg Except.ok (decodeBus_of_write hWE)⟩

/-- Settles O4: a legal word is the word of a command, and the commands are the five rows of the opcode map. -/
theorem legalCommandWordsAreExactlyFive : Obligations.LegalCommandWordsAreExactlyFive := by
  intro v i
  rw [decode_cmd_eq_ok_iff_exists]
  constructor
  · rintro ⟨c, rfl, rfl⟩
    match c with
    | .loadcal => exact .inl ⟨rfl, rfl⟩
    | .temp .disabled => exact .inr (.inl ⟨rfl, rfl⟩)
    | .temp .enabled => exact .inr (.inr (.inl ⟨rfl, rfl⟩))
    | .pres .disabled => exact .inr (.inr (.inr (.inl ⟨rfl, rfl⟩)))
    | .pres .enabled => exact .inr (.inr (.inr (.inr ⟨rfl, rfl⟩)))
  · rintro (⟨rfl, rfl⟩ | ⟨rfl, rfl⟩ | ⟨rfl, rfl⟩ | ⟨rfl, rfl⟩ | ⟨rfl, rfl⟩)
    · exact ⟨.loadcal, rfl, rfl⟩
    · exact ⟨.temp .disabled, rfl, rfl⟩
    · exact ⟨.temp .enabled, rfl, rfl⟩
    · exact ⟨.pres .disabled, rfl, rfl⟩
    · exact ⟨.pres .enabled, rfl, rfl⟩

end Sys2Proof

namespace Sys2Proof.Machine

theorem assembleLine_of_wellFormed {l : AsmLine} (h : l.wellFormed = true) :
    assembleLine l = .ok ((expandLine l).map encodeItem) := by
  simp [assembleLine, h]

/-- `temp` is the write of TEMP's word to CMD (`30_encoding.md` R82). -/
theorem expandLine_temp (m : Mode) : expandLine (.temp m) = [.wr .cmd (encodeCmd (.temp m))] := by
  cases m <;> rfl

/-- `pres` is the write of PRES's word to CMD (`30_encoding.md` R82). -/
theorem expandLine_pres (m : Mode) : expandLine (.pres m) = [.wr .cmd (encodeCmd (.pres m))] := by
  cases m <;> rfl

theorem expandLine_mtemp (m : Mode) (t : Int) :
    expandLine (.mtemp m t) = expandLine (.wr (.name .d2) t) ++ expandLine (.temp m) := by
  cases m <;> rfl

theorem expandLine_mpres (m : Mode) (p t : Int) :
    expandLine (.mpres m p t) =
      expandLine (.wr (.name .d1) p) ++ expandLine (.wr (.name .d2) t) ++ expandLine (.pres m) := by
  cases m <;> rfl

/-- A `temp` line assembles to the item that carries TEMP's word (`30_encoding.md` R82). -/
theorem assembleLine_temp (m : Mode) : assembleLine (.temp m) = .ok [carrier (encodeCmd (.temp m))] := by
  rw [assembleLine_of_wellFormed rfl, expandLine_temp]
  rfl

/-- A `pres` line assembles to the item that carries PRES's word (`30_encoding.md` R82). -/
theorem assembleLine_pres (m : Mode) : assembleLine (.pres m) = .ok [carrier (encodeCmd (.pres m))] := by
  rw [assembleLine_of_wellFormed rfl, expandLine_pres]
  rfl

/-- Settles O59: a command line is the carrier of its word, and a sequence is the lines it is listed as. -/
theorem pseudoInstructionsExpandAsListed : Obligations.PseudoInstructionsExpandAsListed :=
  ⟨assembleLine_of_wellFormed rfl, assembleLine_temp .disabled, assembleLine_temp .enabled,
    assembleLine_pres .disabled, assembleLine_pres .enabled, fun _ _ _ _ => rfl, expandLine_mtemp, expandLine_mpres, rfl⟩

end Sys2Proof.Machine
end

section
/-! PROOF. The obligations of `40_bus_access.md`: what a command word decodes to by its fields, and what a read and
a write do at each address. -/

namespace Sys2Proof

theorem decodeCmd_of_reservedBits {v : Word} (hRSV : cmdRSV v ≠ 0) : decodeCmd v = .error .reservedBits :=
  if_pos hRSV

theorem decodeCmd_of_loadcal {v : Word} (hRSV : cmdRSV v = 0) (hOP : cmdOP v = 0x1)
    (hMODE : Mode.ofBit (cmdMODE v) = .disabled) : decodeCmd v = .ok .loadcal := by
  have hbit : cmdMODE v = false := by simpa [Mode.ofBit] using hMODE
  simp [decodeCmd, hRSV, hOP, hbit]

theorem decodeCmd_of_temp {v : Word} (hRSV : cmdRSV v = 0) (hOP : cmdOP v = 0x2) :
    decodeCmd v = .ok (.temp (Mode.ofBit (cmdMODE v))) := by
  simp [decodeCmd, hRSV, hOP]

theorem decodeCmd_of_pres {v : Word} (hRSV : cmdRSV v = 0) (hOP : cmdOP v = 0x3) :
    decodeCmd v = .ok (.pres (Mode.ofBit (cmdMODE v))) := by
  simp [decodeCmd, hRSV, hOP]

/-- A word that is none of LOADCAL, TEMP and PRES by its OP and MODE is rejected (`30_encoding.md` R76 (a), (b)). -/
theorem decodeCmd_of_otherFields {v : Word} (hLoadcal : ¬(cmdOP v = 0x1 ∧ Mode.ofBit (cmdMODE v) = .disabled))
    (hTemp : cmdOP v ≠ 0x2) (hPres : cmdOP v ≠ 0x3) : ∃ e, decodeCmd v = .error e := by
  by_cases hRSV : cmdRSV v = 0
  · by_cases hOP : cmdOP v = 0x1
    · have hbit : cmdMODE v = true := by simpa [Mode.ofBit, hOP] using hLoadcal
      exact ⟨.loadcalWithMode, by simp [decodeCmd, hRSV, hOP, hbit]⟩
    · exact ⟨.illegalOp, by rw [decodeCmd, if_neg (not_not.mpr hRSV), if_neg hOP, if_neg hTemp, if_neg hPres]⟩
  · exact ⟨.reservedBits, decodeCmd_of_reservedBits hRSV⟩

end Sys2Proof

namespace Sys2Proof.Machine

/-- The write of a command's word to CMD is the command (`40_bus_access.md` R102). -/
theorem exec_wr_cmd_of_ok {v : Word} {c : Command} (h : decodeCmd v = .ok c) (s : State) :
    exec (.wr .cmd v) s = exec c.toInstr s := by
  rw [exec_wr_cmd, executeCmd_of_ok h, exec_command]

/-- The write of any other word to CMD reports ILLEGAL_CMD (`40_bus_access.md` R102, `60_exceptions.md` R206). -/
theorem exec_wr_cmd_of_error {v : Word} {e : DecodeError} (h : decodeCmd v = .error e) (s : State) :
    exec (.wr .cmd v) s = .next (s.cmdError .illegalCmd).advance := by
  rw [exec_wr_cmd, executeCmd_of_error h]

/-- Settles O17: in each case of the dispatch the fields say what the word decodes to. -/
theorem commandWordIsDispatchedByItsFields : Obligations.CommandWordIsDispatchedByItsFields := by
  intro s v op m illegal
  split_ifs with hRSV hLoadcal hTemp hPres
  · exact exec_wr_cmd_of_error (decodeCmd_of_reservedBits hRSV) s
  · obtain ⟨hOP, hMODE⟩ := hLoadcal
    exact exec_wr_cmd_of_ok (decodeCmd_of_loadcal (not_not.mp hRSV) hOP hMODE) s
  · exact exec_wr_cmd_of_ok (decodeCmd_of_temp (not_not.mp hRSV) hTemp) s
  · exact exec_wr_cmd_of_ok (decodeCmd_of_pres (not_not.mp hRSV) hPres) s
  · obtain ⟨e, he⟩ := decodeCmd_of_otherFields hLoadcal hTemp hPres
    exact exec_wr_cmd_of_error he s

/-- The pattern of STATUS is the sum of its fields at their places (`10_state.md` R22); the codes have 256
combinations. -/
theorem statusPattern_toNat : ∀ (err : BitVec 3) (corr : Bool) (band : BitVec 2) (resValid calValid : Bool),
    (statusPattern err corr band resValid calValid).toNat =
      err.toNat * 32 + corr.toNat * 16 + band.toNat * 4 + resValid.toNat * 2 + calValid.toNat := by
  decide

/-- RES_HI as a number (`20_memory.md` R53). -/
theorem toNat_moreSignificantHalf (x : BitVec 32) : (x.extractLsb' 16 16).toNat = x.toNat / 65536 := by
  rw [BitVec.extractLsb'_toNat, Nat.shiftRight_eq_div_pow]
  exact Nat.mod_eq_of_lt (Nat.div_lt_of_lt_mul x.isLt)

/-- RES_LO as a number (`20_memory.md` R53). -/
theorem toNat_lessSignificantHalf (x : BitVec 32) : (x.extractLsb' 0 16).toNat = x.toNat % 65536 := by
  rw [BitVec.extractLsb'_toNat, Nat.shiftRight_zero]

/-- Settles O13: DATA of a read is not decoded, and a register's value is its storage, zero-extended or put together
from its fields. -/
theorem readEmitsTheRegister : Obligations.ReadEmitsTheRegister := by
  refine ⟨fun s r => exec_rd r s, fun s b hWE => ?_, fun s => ?_⟩
  · exact congrArg (exec · s) (decodeBus_of_read hWE)
  · refine ⟨rfl, statusPattern_toNat _ _ _ _ _, rfl, rfl, rfl, rfl, rfl, rfl, toNat_moreSignificantHalf s.result,
      toNat_lessSignificantHalf s.result, ?_, ?_, ?_, ?_, ?_, ?_⟩
    all_goals exact BitVec.toNat_setWidth_of_le (by decide)

/-- Settles O16: a write of a staging register is its store, and the nine read-only registers ignore it. -/
theorem writeStoresExecutesOrIsIgnored : Obligations.WriteStoresExecutesOrIsIgnored := by
  obtain ⟨-, -, hExecute, -⟩ := stagingWritesStoreAndCommandWritesRun
  refine ⟨fun s v => ⟨hExecute s v, ?_, ?_, ?_, ?_, ?_, ?_, fun r hr => exec_wr_readOnly hr s v⟩, by decide,
    fun s b hWE => ?_⟩
  iterate 6 exact exec_wr_of_ne_cmd (by decide) v s
  exact congrArg (exec · s) (decodeBus_of_write hWE)

end Sys2Proof.Machine
end

section
/-! PROOF. The obligations of `41_unpack.md`: each mask-and-shift formula selects a bit field, and what LOADCAL does in
either value of CAL_VALID. -/

namespace Sys2Proof.Machine

/-- A mask of `k` ones keeps the low `k` bits of a register pattern. -/
theorem and_lowMask (k : Nat) (mask : Word) (h : mask = (BitVec.allOnes k).setWidth 16) (x : Word) :
    x &&& mask = (x.setWidth k).setWidth 16 := by
  subst h
  ext i hi
  by_cases hk : i < k <;> simp [hk, hi]

/-- A field of `k` bits takes of a pattern what a mask of `k` ones keeps. -/
theorem setWidth_and_lowMask (k : Nat) (mask : Word) (h : mask = (BitVec.allOnes k).setWidth 16) (hk : k ≤ 16)
    (x : Word) : (x &&& mask).setWidth k = x.setWidth k := by
  rw [and_lowMask k mask h, BitVec.setWidth_setWidth_of_le _ hk, BitVec.setWidth_eq]

/-! The bit-field form of each coefficient. -/

theorem coeffC1_eq (w0 : Word) : coeffC1 w0 = w0.extractLsb' 1 15 := by
  rw [coeffC1, setWidth_and_lowMask 15 0x7FFF rfl (by decide), BitVec.setWidth_ushiftRight_eq_extractLsb]

theorem coeffC2_eq (w2 w3 : Word) : coeffC2 w2 w3 = w2.extractLsb' 0 6 ++ w3.extractLsb' 0 6 := by
  rw [coeffC2, and_lowMask 6 0x003F rfl, and_lowMask 6 0x003F rfl, ← BitVec.setWidth_append_eq_shiftLeft_setWidth_or,
    BitVec.setWidth_setWidth_of_le _ (by decide), BitVec.setWidth_eq, BitVec.setWidth_eq_extractLsb' (by decide),
    BitVec.setWidth_eq_extractLsb' (by decide)]

theorem coeffC3_eq (w3 : Word) : coeffC3 w3 = w3.extractLsb' 6 10 := by
  rw [coeffC3, setWidth_and_lowMask 10 0x03FF rfl (by decide), BitVec.setWidth_ushiftRight_eq_extractLsb]

/-- C4 is taken from W2 as C3 is from W3. -/
theorem coeffC4_eq (w2 : Word) : coeffC4 w2 = w2.extractLsb' 6 10 := coeffC3_eq w2

theorem coeffC5_eq (w0 w1 : Word) : coeffC5 w0 w1 = w0.extractLsb' 0 1 ++ w1.extractLsb' 6 10 := by
  rw [coeffC5, and_lowMask 1 0x0001 rfl, and_lowMask 10 0x03FF rfl, ← BitVec.setWidth_append_eq_shiftLeft_setWidth_or,
    BitVec.setWidth_setWidth_of_le _ (by decide), BitVec.setWidth_eq, BitVec.setWidth_eq_extractLsb' (by decide),
    BitVec.setWidth_ushiftRight_eq_extractLsb]

theorem coeffC6_eq (w1 : Word) : coeffC6 w1 = w1.extractLsb' 0 6 := by
  rw [coeffC6, setWidth_and_lowMask 6 0x003F rfl (by decide), BitVec.setWidth_eq_extractLsb' (by decide)]

/-- The unpack as a selection of bit fields (`41_unpack.md` R121 to R126). -/
theorem unpack_eq_fields (w0 w1 w2 w3 : Word) :
    unpack w0 w1 w2 w3 =
      { c1 := w0.extractLsb' 1 15
        c2 := w2.extractLsb' 0 6 ++ w3.extractLsb' 0 6
        c3 := w3.extractLsb' 6 10
        c4 := w2.extractLsb' 6 10
        c5 := w0.extractLsb' 0 1 ++ w1.extractLsb' 6 10
        c6 := w1.extractLsb' 0 6 } := by
  rw [unpack, coeffC1_eq, coeffC2_eq, coeffC3_eq, coeffC4_eq, coeffC5_eq, coeffC6_eq]

/-- The value of a bit field is the shifted and masked value of its pattern. -/
theorem toNat_extractLsb'_eq_and {w : Nat} (x : BitVec w) (i k : Nat) :
    (x.extractLsb' i k).toNat = (x.toNat >>> i) &&& (2 ^ k - 1) := by
  rw [BitVec.extractLsb'_toNat, Nat.and_two_pow_sub_one_eq_mod]

/-- The value of two bit fields put together is the shifted and masked values of their patterns, put together. -/
theorem toNat_append_extractLsb' {v w : Nat} (x : BitVec v) (y : BitVec w) (i k j l : Nat) :
    (x.extractLsb' i k ++ y.extractLsb' j l).toNat =
      (((x.toNat >>> i) &&& (2 ^ k - 1)) <<< l) ||| ((y.toNat >>> j) &&& (2 ^ l - 1)) := by
  rw [BitVec.toNat_append, toNat_extractLsb'_eq_and, toNat_extractLsb'_eq_and]

/-- Settles O36: the bit fields give the formulas' values, and each coefficient's width gives its range. -/
theorem coefficientsFollowTheMaskAndShiftFormulas : Obligations.CoefficientsFollowTheMaskAndShiftFormulas := by
  intro w0 w1 w2 w3
  rw [unpack_eq_fields]
  intro c
  have hC5 : c.c5.getLsbD 10 = w0.getLsbD 0 := by
    rw [BitVec.getLsbD_append]
    simp
  exact ⟨toNat_extractLsb'_eq_and w0 1 15, toNat_append_extractLsb' w2 w3 0 6 0 6, toNat_extractLsb'_eq_and w3 6 10,
    toNat_extractLsb'_eq_and w2 6 10, toNat_append_extractLsb' w0 w1 0 1 6 10, toNat_extractLsb'_eq_and w1 0 6,
    rfl, BitVec.extractLsb'_append_eq_left, BitVec.extractLsb'_append_eq_right, rfl, rfl,
    hC5, BitVec.extractLsb'_append_eq_right, rfl,
    Nat.le_of_lt_succ c.c1.isLt, Nat.le_of_lt_succ c.c2.isLt, Nat.le_of_lt_succ c.c3.isLt,
    Nat.le_of_lt_succ c.c4.isLt, Nat.le_of_lt_succ c.c5.isLt, Nat.le_of_lt_succ c.c6.isLt⟩

/-- LOADCAL opens a session that is not open (`41_unpack.md` R120). -/
theorem exec_loadcal_of_not_calValid {s : State} (h : s.status.calValid = false) :
    exec .loadcal s =
      .next { s with
        coeffs := unpack s.staging.w0 s.staging.w1 s.staging.w2 s.staging.w3
        status := Status.calibrated
        pc := s.pc + 1 } :=
  congrArg (Host.Outcome.next ∘ State.advance) (loadcalCmd_of_not_calValid h)

/-- LOADCAL of an open session only reports CAL_LOCKED (`41_unpack.md` R120). -/
theorem exec_loadcal_of_calValid {s : State} (h : s.status.calValid = true) :
    exec .loadcal s = .next { s with status := s.status.failed .calLocked, pc := s.pc + 1 } :=
  congrArg (Host.Outcome.next ∘ State.advance) (loadcalCmd_of_calValid h)

/-- A word with MODE = 1 in LOADCAL, or with a reserved bit set, spells no command (`30_encoding.md` R76 (b), (c)). -/
theorem decodeCmd_error_of_mode_or_reserved {v : Word} (h : v = 0x0011 ∨ v.extractLsb' 5 11 ≠ 0) :
    ∃ e, decodeCmd v = .error e := by
  rcases h with rfl | hRSV
  · exact ⟨.loadcalWithMode, by decide⟩
  · exact ⟨.reservedBits, decodeCmd_of_reservedBits hRSV⟩

/-- Settles O35, by the two values of CAL_VALID; a word that spells no command reports ILLEGAL_CMD. -/
theorem loadcalUnpacksTheCalibrationWords : Obligations.LoadcalUnpacksTheCalibrationWords := by
  refine ⟨fun s hcal => ?_, fun s hcal => ?_, rfl, rfl, fun s t v hv h => ?_⟩
  · rw [exec_loadcal_of_not_calValid hcal, unpack_eq_fields, Status.calibrated]
  · rw [exec_loadcal_of_calValid hcal, Status.failed, hcal]
  · obtain ⟨e, he⟩ := decodeCmd_error_of_mode_or_reserved hv
    obtain rfl := Host.Outcome.next.inj ((exec_wr_cmd_of_error he s).symm.trans h)
    rfl

end Sys2Proof.Machine
end

section
/-! PROOF. The obligations of `42_temperature.md`: the band, what TEMP leaves in either value of CAL_VALID, and how its
result reads back. -/

namespace Sys2Proof.Machine

/-- TEMP of a calibrated block writes RESULT and STATUS and nothing else (`42_temperature.md` R147). -/
theorem exec_temp_of_calValid (m : Mode) {s : State} (h : s.status.calValid = true) :
    exec (.temp m) s =
      .next { s with
        result := trunc32 (tempResult m (zext s.coeffs.c6) s.firstTemp)
        status := s.status.computed m (bandOf s.firstTemp)
        pc := s.pc + 1 } :=
  congrArg (Host.Outcome.next ∘ State.advance) (tempCmd_of_calValid m h)

/-- TEMP of a block without a calibration only reports CAL_NOT_VALID (`42_temperature.md` R147). -/
theorem exec_temp_of_not_calValid (m : Mode) {s : State} (h : s.status.calValid = false) :
    exec (.temp m) s = .next { s with status := s.status.failed .calNotValid, pc := s.pc + 1 } :=
  congrArg (Host.Outcome.next ∘ State.advance) (tempCmd_of_not_calValid m h)

/-- Settles O39: the band is that of the first-order TEMP, and PRES leaves the STATUS that TEMP leaves. -/
theorem bandThresholdsAreStrict : Obligations.BandThresholdsAreStrict := by
  refine ⟨fun t => ⟨bandOf_eq_low_iff, bandOf_eq_high_iff, bandOf_eq_inBand_iff⟩, rfl, rfl, rfl, rfl,
    fun s m hcal => ?_⟩
  have hband : (tempCmd m s).status.band = bandOf s.firstTemp := by simp [tempCmd_of_calValid m hcal]
  exact ⟨⟨_, rfl, hband⟩, ⟨_, rfl, (congrArg Status.band (presCmd_status m s)).trans hband⟩⟩

/-- The first-order TEMP from the registers themselves (`42_temperature.md` R140 to R142). -/
theorem State.firstTemp_eq (s : State) :
    s.firstTemp =
      200 + asr ((s.staging.d2.toInt - (s.coeffs.c5.toNat * 8 + 20224)) * (s.coeffs.c6.toNat + 50)) 10 := by
  rw [← sext16_eq_toInt]
  rfl

theorem t2Low_eq_sq (c6 t : Int) : t2Low c6 t = asr (11 * (c6 + 24) * (200 - t) ^ 2) 20 := by
  rw [t2Low, sq, ← mul_assoc]

theorem t2High_eq_sq (c6 t : Int) : t2High c6 t = asr (3 * (c6 + 24) * (450 - t) ^ 2) 20 := by
  rw [t2High, sq, ← mul_assoc]

/-- The result of TEMP by mode and threshold (`42_temperature.md` R144 to R147). -/
theorem tempResult_eq_ite (m : Mode) (c6 t : Int) :
    tempResult m c6 t =
      if m = .enabled ∧ t < 200 then t - t2Low c6 t
      else if m = .enabled ∧ t > 450 then t - t2High c6 t
      else t := by
  cases m with
  | disabled => rfl
  | enabled =>
    cases hb : bandOf t with
    | low => simp [tempResult, hb, bandOf_eq_low_iff.mp hb]
    | high =>
      have hhigh := bandOf_eq_high_iff.mp hb
      have hlow : ¬t < 200 := by omega
      simp [tempResult, hb, hlow, hhigh]
    | inBand =>
      obtain ⟨hlow, hhigh⟩ := bandOf_eq_inBand_iff.mp hb
      simp [tempResult, hb, not_lt.mpr hlow, not_lt.mpr hhigh]

/-- STATUS after a TEMP or PRES of a calibrated block, with CORR in terms of mode and band (`10_state.md` R26). -/
theorem Status.computed_of_calValid (m : Mode) (b : Band) {st : Status} (h : st.calValid = true) :
    st.computed m b =
      { calValid := true, resValid := true, band := b, corr := decide (m = .enabled ∧ b ≠ .inBand),
        err := .ok } := by
  rw [Status.computed, h, corrOf_eq_decide]

/-- The read values of STATUS after a TEMP or PRES of a calibrated block (the key of `95_test_vectors.md`). -/
theorem Status.computed_word_mem (m : Mode) (b : Band) {st : Status} (h : st.calValid = true) :
    (st.computed m b).word ∈ [(0x0003 : Word), 0x0007, 0x000B, 0x0017, 0x001B] := by
  rw [Status.computed_of_calValid m b h]
  cases m <;> cases b <;> decide

/-- A word with a reserved bit set reports ILLEGAL_CMD whatever its OP is (`60_exceptions.md` R205). -/
theorem exec_wr_cmd_err_of_reserved {s t : State} {v : Word} (hRSV : v.extractLsb' 5 11 ≠ 0)
    (h : exec (.wr .cmd v) s = .next t) : t.status.err = .illegalCmd := by
  obtain rfl := Host.Outcome.next.inj ((exec_wr_cmd_of_error (decodeCmd_of_reservedBits hRSV) s).symm.trans h)
  rfl

/-- Settles O40, by the two values of CAL_VALID: the statement's formulas are the model's at the registers' values. -/
theorem tempComputesTheCompensatedTemperature : Obligations.TempComputesTheCompensatedTemperature := by
  refine ⟨fun s m hcal => ?_, fun s m hcal => ?_, rfl, rfl, fun s t v => exec_wr_cmd_err_of_reserved⟩
  · intro d2 c5 c6 dT t b r st
    have ht : s.firstTemp = t := s.firstTemp_eq
    have hr : tempResult m (zext s.coeffs.c6) t = r := by
      rw [tempResult_eq_ite, t2Low_eq_sq, t2High_eq_sq]
      rfl
    have hst : s.status.computed m (bandOf t) = st := Status.computed_of_calValid m (bandOf t) hcal
    rw [exec_temp_of_calValid m hcal, ht, hr, hst]
    exact ⟨rfl, hst ▸ Status.computed_word_mem m (bandOf t) hcal⟩
  · rw [exec_temp_of_not_calValid m hcal, Status.failed, hcal]

/-- The more significant half of a non-negative value below 2^16 is 0 (`42_temperature.md` R148). -/
theorem moreSignificantHalf_of_nonneg {x : BitVec 32} {r : Int} (hx : x.toInt = r) (h : 0 ≤ r ∧ r < 65536) :
    x.extractLsb' 16 16 = 0x0000 := by
  rw [BitVec.toInt_eq_toNat_cond] at hx
  have hhalf : x.toNat / 65536 = 0 := by omega
  exact BitVec.eq_of_toNat_eq ((toNat_moreSignificantHalf x).trans hhalf)

/-- The more significant half of a negative value not below -2^16 is all ones (`42_temperature.md` R148). -/
theorem moreSignificantHalf_of_neg {x : BitVec 32} {r : Int} (hx : x.toInt = r) (h : -65536 ≤ r ∧ r < 0) :
    x.extractLsb' 16 16 = 0xFFFF := by
  rw [BitVec.toInt_eq_toNat_cond] at hx
  have hhalf : x.toNat / 65536 = 65535 := by omega
  exact BitVec.eq_of_toNat_eq ((toNat_moreSignificantHalf x).trans hhalf)

/-- Settles O42: the range of the result is inside 17 bits, so RESULT is exact and its upper half is the sign. -/
theorem tempResultIsReadBackExactly : Obligations.TempResultIsReadBackExactly := by
  intro s m hcal r
  have hmem : -60936 ≤ r ∧ r ≤ 1584 := tempResult_mem m (zext_mem s.coeffs.c6) s.firstTemp_mem
  have hexact : (trunc32 r).toInt = r := s.toInt_tempResult m
  refine ⟨hmem, _, exec_temp_of_calValid m hcal, rfl, hexact, fun hr => ?_, fun hr => ?_⟩
  · exact moreSignificantHalf_of_nonneg hexact (by omega)
  · exact moreSignificantHalf_of_neg hexact (by omega)

end Sys2Proof.Machine
end

section
/-! PROOF. The obligations of `43_pressure.md`: what PRES leaves in either value of CAL_VALID, its result by mode and
threshold, and how it reads back. -/

namespace Sys2Proof.Machine

/-- PRES of a calibrated block writes RESULT and STATUS and nothing else (`43_pressure.md` R176). -/
theorem exec_pres_of_calValid (m : Mode) {s : State} (h : s.status.calValid = true) :
    exec (.pres m) s =
      .next { s with
        result := trunc32 (presResult m (zext s.coeffs.c6) s.firstTemp s.firstPres)
        status := s.status.computed m (bandOf s.firstTemp)
        pc := s.pc + 1 } :=
  congrArg (Host.Outcome.next ∘ State.advance) (presCmd_of_calValid m h)

/-- PRES of a block without a calibration only reports CAL_NOT_VALID (`43_pressure.md` R176). -/
theorem exec_pres_of_not_calValid (m : Mode) {s : State} (h : s.status.calValid = false) :
    exec (.pres m) s = .next { s with status := s.status.failed .calNotValid, pc := s.pc + 1 } :=
  congrArg (Host.Outcome.next ∘ State.advance) (presCmd_of_not_calValid m h)

/-- dT from the registers themselves (`42_temperature.md` R140, R141). -/
theorem State.dT_eq (s : State) : s.dT = s.staging.d2.toInt - (s.coeffs.c5.toNat * 8 + 20224) :=
  congrArg (deltaT · (zext s.coeffs.c5)) (sext16_eq_toInt s.staging.d2)

/-- The first-order pressure with D1 read signed (`43_pressure.md` R170 to R173, `10_state.md` R29). -/
theorem State.firstPres_eq (s : State) :
    s.firstPres =
      Machine.firstPres s.coeffs.c1.toNat s.coeffs.c2.toNat s.coeffs.c3.toNat s.coeffs.c4.toNat s.staging.d1.toInt
        s.dT :=
  congrArg (Machine.firstPres _ _ _ _ · s.dT) (sext16_eq_toInt s.staging.d1)

/-- The result of PRES by mode and threshold (`43_pressure.md` R174 to R176). -/
theorem presResult_eq_ite (m : Mode) (c6 t p : Int) :
    presResult m c6 t p =
      if m = .enabled ∧ t < 200 then p - p2Low (t2Low c6 t) p
      else if m = .enabled ∧ t > 450 then p - p2High (t2High c6 t) p
      else p := by
  cases m with
  | disabled => rfl
  | enabled =>
    simp only [presResult, bandOf, true_and]
    split_ifs <;> rfl

/-- Settles O41, by the two values of CAL_VALID: the statement's formulas are the model's at the registers' values,
with the one dT in the pressure and in the band's temperature. -/
theorem presComputesTheCompensatedPressure : Obligations.PresComputesTheCompensatedPressure := by
  refine ⟨fun s m hcal => ?_, fun s m hcal => ?_, rfl, rfl, fun s t v => exec_wr_cmd_err_of_reserved⟩
  · intro d1 d2 c1 c2 c3 c4 c5 c6 dT off sens x p t b r st
    have ht : s.firstTemp = t := s.firstTemp_eq
    have hp : s.firstPres = p := by
      rw [s.firstPres_eq, s.dT_eq]
      rfl
    have hr : presResult m (zext s.coeffs.c6) t p = r := by
      rw [presResult_eq_ite, t2Low_eq_sq, t2High_eq_sq]
      rfl
    have hst : s.status.computed m (bandOf t) = st := Status.computed_of_calValid m (bandOf t) hcal
    rw [exec_pres_of_calValid m hcal, ht, hp, hr, hst]
    exact ⟨rfl, hst ▸ Status.computed_word_mem m (bandOf t) hcal⟩
  · rw [exec_pres_of_not_calValid m hcal, Status.failed, hcal]

/-- A calibrated block whose corrected pressure is the largest there is (`43_pressure.md` R179, vector P-9 of
`95_test_vectors.md`). -/
def State.largestPressure : State :=
  { State.reset with
    staging := { w0 := 0, w1 := 0, w2 := 0, w3 := 0, d1 := 0x8000, d2 := 0x8000 }
    coeffs := { c1 := 32767, c2 := 4095, c3 := 0, c4 := 0, c5 := 2047, c6 := 63 }
    status := Status.calibrated }

/-- The largest result of PRES, attained (`43_pressure.md` R177, R179). -/
theorem presResult_largestPressure :
    presResult .enabled (zext State.largestPressure.coeffs.c6) State.largestPressure.firstTemp
      State.largestPressure.firstPres = 465186 := by
  decide

/-- Settles O43: the range of the result is inside 32 bits, so RESULT is exact; vector P-9 has the value 465186, whose
more significant half is 7. -/
theorem presResultIsReadBackExactly : Obligations.PresResultIsReadBackExactly := by
  refine ⟨fun s m hcal => ?_, .largestPressure, _, exec_pres_of_calValid .enabled rfl, ?_⟩
  · have hmem := presResult_mem m (zext_mem s.coeffs.c6) s.firstTemp_mem s.firstPres_mem
    exact ⟨hmem, _, exec_pres_of_calValid m hcal, rfl, s.toInt_presResult m⟩
  · rw [presResult_largestPressure]
    decide

end Sys2Proof.Machine
end

section
/-! PROOF. The obligations of `60_exceptions.md`: which words are illegal, which code each outcome of a command leaves
in ERR, and what the report of a failed command writes. -/

namespace Sys2Proof

/-- A word in one of the classes of `30_encoding.md` R76 spells no command (`60_exceptions.md` R202). -/
theorem decodeCmd_error_of_illegalFields {v : Word}
    (h : cmdRSV v ≠ 0 ∨ cmdOP v ∉ [(0x1 : BitVec 4), 0x2, 0x3] ∨ (cmdOP v = 0x1 ∧ cmdMODE v = true)) :
    ∃ e, decodeCmd v = .error e := by
  rcases h with hRSV | hOP | ⟨hOP, hMODE⟩
  · exact ⟨.reservedBits, decodeCmd_of_reservedBits hRSV⟩
  · simp only [List.mem_cons, List.not_mem_nil, or_false, not_or] at hOP
    obtain ⟨hLoadcal, hTemp, hPres⟩ := hOP
    exact decodeCmd_of_otherFields (fun ⟨h, _⟩ => hLoadcal h) hTemp hPres
  · exact decodeCmd_of_otherFields (by simp [hMODE, Mode.ofBit]) (by simp [hOP]) (by simp [hOP])

theorem toInstr_eq_temp_or_pres_iff {c : Command} :
    (∃ m, c.toInstr = .temp m ∨ c.toInstr = .pres m) ↔ c ≠ .loadcal := by
  cases c <;> simp [Command.toInstr]

theorem toInstr_eq_loadcal_iff {c : Command} : c.toInstr = .loadcal ↔ c = .loadcal := by
  cases c <;> simp [Command.toInstr]

end Sys2Proof

namespace Sys2Proof.Machine

/-- ERR after a legal command word, by its command and CAL_VALID (`60_exceptions.md` R203 to R205). -/
theorem runCommand_err (c : Command) (s : State) :
    (runCommand c s).status.err =
      if c = .loadcal then if s.status.calValid then .calLocked else .ok
      else if s.status.calValid then .ok else .calNotValid := by
  cases c with
  | loadcal =>
    rw [runCommand, loadcalCmd_status]
    split <;> simp
  | temp m =>
    rw [runCommand, tempCmd_status]
    split <;> simp
  | pres m =>
    rw [runCommand, presCmd_status, tempCmd_status]
    split <;> simp

theorem runCommand_err_ne_illegalCmd (c : Command) (s : State) : (runCommand c s).status.err ≠ .illegalCmd := by
  rw [runCommand_err]
  split_ifs <;> decide

theorem runCommand_err_eq_calNotValid_iff {c : Command} {s : State} :
    (runCommand c s).status.err = .calNotValid ↔ s.status.calValid = false ∧ c ≠ .loadcal := by
  rw [runCommand_err]
  split_ifs <;> simp [*]

theorem runCommand_err_eq_calLocked_iff {c : Command} {s : State} :
    (runCommand c s).status.err = .calLocked ↔ s.status.calValid = true ∧ c = .loadcal := by
  rw [runCommand_err]
  split_ifs <;> simp [*]

/-- Settles O28, by what the word decodes to: an illegal word only reports ILLEGAL_CMD, and a legal one leaves in ERR
what its command and CAL_VALID say. -/
theorem encodingIsCheckedBeforeCalibration : Obligations.EncodingIsCheckedBeforeCalibration := by
  intro s t v h
  obtain rfl := Host.Outcome.next.inj ((exec_wr_cmd v s).symm.trans h)
  rw [State.advance_status]
  cases hd : decodeCmd v with
  | error e =>
    have hdecode : decode (.cmd v) = .error e := decode_cmd_eq_error_iff.mpr hd
    have herr : (executeCmd v s).status.err = .illegalCmd := by rw [executeCmd_of_error hd]; rfl
    simp [hdecode, herr]
  | ok c =>
    have hdecode : decode (.cmd v) = .ok c.toInstr := decode_cmd_eq_ok_iff.mpr hd
    rw [executeCmd_of_ok hd, hdecode, runCommand_err_eq_calNotValid_iff, runCommand_err_eq_calLocked_iff]
    simp [runCommand_err_ne_illegalCmd, toInstr_eq_temp_or_pres_iff, toInstr_eq_loadcal_iff]

/-- The report of a failed command shows in no register but STATUS (`60_exceptions.md` R206). -/
theorem readReg_cmdError {r : Reg} (h : r ≠ .status) (s : State) (c : ErrCode) :
    (s.cmdError c).readReg r = s.readReg r := by
  cases r with
  | status => exact absurd rfl h
  | _ => rfl

/-- STATUS reads as `c << 5 | CAL_VALID` after a failed command (`60_exceptions.md` R206). -/
theorem Status.failed_word_toNat (c : ErrCode) (st : Status) :
    (st.failed c).word.toNat = c.code.toNat * 32 + st.calValid.toNat :=
  statusPattern_toNat c.code false Band.inBand.code false st.calValid

/-- Settles O24: the fields are the definition's, and the read value is the pattern of STATUS with three fields 0. -/
theorem failedCommandChangesOnlyStatusBits7To1 : Obligations.FailedCommandChangesOnlyStatusBits7To1 :=
  fun s c => ⟨rfl, s.status.failed_word_toNat c, fun _ hr => readReg_cmdError hr s c⟩

/-- Settles O25: a word in each of the three classes spells no command, and its write only reports ILLEGAL_CMD. -/
theorem illegalCommandWordsRaiseIllegalCmd : Obligations.IllegalCommandWordsRaiseIllegalCmd := by
  intro s v hv
  obtain ⟨e, he⟩ := decodeCmd_error_of_illegalFields hv
  exact exec_wr_cmd_of_error he s

/-- The write of a command's word to CMD is the command (`30_encoding.md` R70, R82). -/
theorem exec_wr_cmd_encodeCmd (c : Command) (s : State) : exec (.wr .cmd (encodeCmd c)) s = exec c.toInstr s :=
  exec_wr_cmd_of_ok (decodeCmd_encodeCmd c) s

/-- Settles O26: the write of either word is its command, and both commands only report CAL_NOT_VALID. -/
theorem computingBeforeCalibrationRaisesCalNotValid : Obligations.ComputingBeforeCalibrationRaisesCalNotValid := by
  intro s m i hcal hi
  have hTemp := exec_temp_of_not_calValid m hcal
  have hPres := exec_pres_of_not_calValid m hcal
  rw [Status.failed, hcal] at hTemp hPres
  simp only [List.mem_cons, List.not_mem_nil, or_false] at hi
  rcases hi with rfl | rfl | rfl | rfl
  · exact hTemp
  · exact hPres
  · exact (exec_wr_cmd_encodeCmd (.temp m) s).trans hTemp
  · exact (exec_wr_cmd_encodeCmd (.pres m) s).trans hPres

/-- No command writes the coefficients of an open session (`60_exceptions.md` R204). -/
theorem executeCmd_keeps_coeffs (v : Word) {s : State} (hs : s.status.calValid = true) :
    (executeCmd v s).coeffs = s.coeffs := by
  rcases executeCmd_cases v s with ⟨c, h, -⟩ | ⟨hclosed, -, -⟩ | ⟨-, m, -, h⟩ | ⟨-, m, -, h⟩
  · simp [h]
  · simp [hs] at hclosed
  · simp [h]
  · simp [h]

/-- No instruction writes the coefficients of an open session (`60_exceptions.md` R204). -/
theorem exec_keeps_coeffs {i : Instr} {s t : State} (h : exec i s = .next t) (hs : s.status.calValid = true) :
    t.coeffs = s.coeffs := by
  rcases exec_command_or_unchanged h with ⟨v, -, rfl⟩ | ⟨hcoeffs, -, -⟩
  · exact executeCmd_keeps_coeffs v hs
  · exact hcoeffs

/-- A step of an open session is the reset event, or the session and its coefficients stay (`60_exceptions.md` R204,
`70_reset_and_hazards.md` R230). -/
theorem step_keeps_session {s t : State} (h : step s = .next t) (hs : s.status.calValid = true) :
    t = s.applyReset ∨ (t.status.calValid = true ∧ t.coeffs = s.coeffs) := by
  rcases step_cases h with ⟨-, hreset⟩ | ⟨-, b, -, he⟩
  · exact .inl hreset
  · exact .inr ⟨exec_keeps_calValid he hs, exec_keeps_coeffs he hs⟩

/-- Settles O27: every step but the reset event keeps an open session, and LOADCAL only reports CAL_LOCKED in it. -/
theorem secondLoadcalRaisesCalLocked : Obligations.SecondLoadcalRaisesCalLocked := by
  refine ⟨fun s t h hcal hne => (step_keeps_session h hcal).resolve_left hne, fun s i hcal hi => ?_⟩
  have hLoadcal := exec_loadcal_of_calValid hcal
  rw [Status.failed, hcal] at hLoadcal
  simp only [List.mem_cons, List.not_mem_nil, or_false] at hi
  rcases hi with rfl | rfl
  · exact hLoadcal
  · exact (exec_wr_cmd_encodeCmd .loadcal s).trans hLoadcal

end Sys2Proof.Machine
end

section
/-! PROOF. The obligation of `70_reset_and_hazards.md`: what the reset event leaves in the register map, and that it
alone lets LOADCAL open a session again. -/

namespace Sys2Proof.Machine

/-- The host's list, index and trace, which the reset event keeps, show in no register
(`70_reset_and_hazards.md` R230). -/
theorem readReg_applyReset (s : State) (r : Reg) : s.applyReset.readReg r = State.reset.readReg r := by
  cases r <;> rfl

/-- LOADCAL after the reset event opens a session (`70_reset_and_hazards.md` R230). -/
theorem exec_loadcal_applyReset_calValid {s t : State} (h : exec .loadcal s.applyReset = .next t) :
    t.status.calValid = true := by
  have hclosed : s.applyReset.status.calValid = false := by simp
  obtain rfl := Host.Outcome.next.inj ((exec_loadcal_of_not_calValid hclosed).symm.trans h)
  rfl

/-- Settles O12: the fields are those of the reset state; only the reset event closes a session, and an open one
keeps its coefficients. -/
theorem resetGivesEveryRegisterItsResetValue : Obligations.ResetGivesEveryRegisterItsResetValue := by
  have hread (s : State) (r : Reg) : s.applyReset.readReg r = 0x0000 :=
    (readReg_applyReset s r).trans (readReg_reset r)
  refine ⟨fun s => ?_, readReg_reset, fun s t => step_clears_calValid, fun s t hcal h => exec_keeps_coeffs h hcal,
    fun s t => exec_loadcal_applyReset_calValid⟩
  exact ⟨rfl, rfl, rfl, rfl, rfl, rfl, rfl, rfl, rfl, rfl, rfl, rfl, rfl, rfl, rfl, rfl, rfl, rfl,
    hread s .status, hread s⟩

end Sys2Proof.Machine
end

section
/-! PROOF. Encoding and decoding are inverse to each other, and a placed table word is run. -/

namespace Sys2Proof

@[simp] theorem decodeBus_busItem_read (r : Reg) (v : Word) : decodeBus (busItem 0 r v) = .rd r := by
  simp [decodeBus]

@[simp] theorem decodeBus_busItem_write (r : Reg) (v : Word) : decodeBus (busItem 1 r v) = .wr r v := by
  simp [decodeBus]

/-- A command is encoded in format CMD, as its word (`30_encoding.md` R74). -/
@[simp] theorem encode_toInstr (c : Command) : encode c.toInstr = .cmd (encodeCmd c) := by cases c <;> rfl

/-- A command is issued as the item that carries its word (`30_encoding.md` R82). -/
theorem encodeItem_toInstr (c : Command) : encodeItem c.toInstr = carrier (encodeCmd c) := by
  rw [encodeItem, encode_toInstr]
  rfl

theorem decode_encode_toInstr (c : Command) : decode (encode c.toInstr) = .ok c.toInstr := by
  rw [encode_toInstr]
  exact decode_cmd_eq_ok_iff.mpr (decodeCmd_encodeCmd c)

/-- Settles O5: the fields of an encoded item are those it was built from, and the word of a command spells it. -/
theorem decodeOfEncodeIsTheInstruction : Obligations.DecodeOfEncodeIsTheInstruction := by
  refine ⟨fun i => ?_, fun r v => ⟨decodeBus_busItem_read r 0, decodeBus_busItem_write r v⟩, fun c => ?_⟩
  · cases i with
    | rd r => exact congrArg Except.ok (decodeBus_busItem_read r 0)
    | wr r v => exact congrArg Except.ok (decodeBus_busItem_write r v)
    | loadcal => exact decode_encode_toInstr .loadcal
    | temp m => exact decode_encode_toInstr (.temp m)
    | pres m => exact decode_encode_toInstr (.pres m)
  · rw [encodeItem_toInstr, decodeBus_carrier]

/-- An item is built from its own WE, the register at its address and its DATA (`30_encoding.md` R71). -/
theorem busItem_ofAddr_fields (b : BusItem) :
    busItem (BitVec.ofBool (busWE b)) (Reg.ofAddr (busA b)) (busDATA b) = b := by
  rw [busItem, addr_ofAddr, busItem_fields]

/-- The mask of WE and A clears DATA and keeps the rest. -/
theorem busItem_and_addressMask (we : BitVec 1) (r : Reg) (v : Word) :
    busItem we r v &&& 0x1F0000 = busItem we r 0 := by
  have hmask : (0x1F0000 : BusItem) = BitVec.allOnes 1 ++ BitVec.allOnes 4 ++ (0 : BitVec 16) := by decide
  rw [hmask, busItem, busItem, BitVec.and_append, BitVec.and_append, BitVec.and_allOnes, BitVec.and_allOnes]
  simp

/-- Settles O6: a legal word is the word of its command, and an item is put together from its fields again. -/
theorem encodeOfDecodeIsTheWord : Obligations.EncodeOfDecodeIsTheWord := by
  refine ⟨fun v i h => ?_, fun b hWE => ?_, fun b hWE => ?_⟩
  · obtain ⟨c, rfl, rfl⟩ := decode_cmd_eq_ok_iff_exists.mp h
    exact encode_toInstr c
  · have hfields := busItem_ofAddr_fields b
    rw [show busWE b = true from hWE] at hfields
    rw [decodeBus_of_write hWE]
    exact hfields
  · have hfields := busItem_ofAddr_fields b
    rw [show busWE b = false from hWE] at hfields
    rw [decodeBus_of_read hWE, ← hfields, busItem_and_addressMask, hfields]
    rfl

/-- Settles O2: the map by computation on its sixteen addresses, the inverses by the laws of the decoder. -/
theorem everyAddressNamesItsRegister : Obligations.EveryAddressNamesItsRegister :=
  ⟨rfl, rfl, rfl, rfl, rfl, rfl, rfl, rfl, rfl, rfl, rfl, rfl, rfl, rfl, rfl, rfl, addr_ofAddr, ofAddr_addr⟩

/-- Settles O1: the eight words are closed terms, and the decoder computes on them. -/
theorem wordsWrittenOutFromTheSpecDecode : Obligations.WordsWrittenOutFromTheSpecDecode := by
  unfold Obligations.WordsWrittenOutFromTheSpecDecode
  decide

end Sys2Proof

namespace Sys2Proof.Machine

/-- With no reset due, a step runs the transaction at the host's index (`10_state.md` R35). -/
theorem step_of_nextItem {s : State} {b : BusItem} (hreset : s.resetDue = false) (hb : s.nextItem = some b) :
    step s = exec (decodeBus b) s := by
  simp [step, hreset, hb]

/-- With no reset due and no transaction at the host's index, a step stops (log 2). -/
theorem step_of_nextItem_eq_none {s : State} (hreset : s.resetDue = false) (hb : s.nextItem = none) :
    step s = .fault .endOfProgram := by
  simp [step, hreset, hb]

/-- A due reset is what a step runs (`70_reset_and_hazards.md` R230, log 3). -/
theorem step_of_resetDue {s : State} (hreset : s.resetDue = true) : step s = .next s.applyReset := by
  simp [step, hreset]

/-- A reset is due exactly if the first scheduled index is reached (log 3). -/
theorem State.resetDue_eq_true_iff (s : State) : s.resetDue = true ↔ ∃ k ks, s.resets = k :: ks ∧ k ≤ s.pc := by
  unfold State.resetDue
  cases s.resets <;> simp

theorem State.resetDue_of_resets_eq_nil {s : State} (h : s.resets = []) : s.resetDue = false := by
  simp [State.resetDue, h]

/-- Settles O7, by whether a reset is due. -/
theorem stepRunsTheNextItem : Obligations.StepRunsTheNextItem := by
  refine ⟨fun s b i hreset hb hd => ?_, State.resetDue_eq_true_iff,
    fun s hreset => ⟨step_of_resetDue hreset, rfl, rfl, rfl, rfl⟩⟩
  rw [step_of_nextItem hreset hb, Except.ok.inj hd]

/-- Settles O8: the carrier of a word decodes to its write to CMD, which is the command the word spells. -/
theorem stepRunsTheCarriedCommand : Obligations.StepRunsTheCarriedCommand := by
  intro s v i hreset hb hd
  obtain ⟨c, rfl, rfl⟩ := decode_cmd_eq_ok_iff_exists.mp hd
  rw [step_of_nextItem hreset hb, decodeBus_carrier, exec_wr_cmd_encodeCmd]

/-- Settles O9: the list holds no item at an index past its end. -/
theorem stepStopsAfterTheLastItem : Obligations.StepStopsAfterTheLastItem :=
  fun _ hreset hlength => step_of_nextItem_eq_none hreset (List.getElem?_eq_none hlength)

/-- A placed word is the next transaction (log 5). -/
theorem State.withFetchWord_nextItem (s : State) (nbits w : Nat) :
    (s.withFetchWord nbits w).nextItem = some (tableItem nbits w) := by
  have hlength : (s.program.take s.pc ++ List.replicate (s.pc - s.program.length) (0 : BusItem)).length = s.pc := by
    simp
    omega
  unfold State.nextItem State.withFetchWord
  simp only [List.append_assoc]
  rw [← List.append_assoc (s.program.take s.pc), List.getElem?_append_right hlength.le, hlength]
  simp

/-- A word is placed with no reset due before it (log 5). -/
theorem State.withFetchWord_resetDue (s : State) (nbits w : Nat) : (s.withFetchWord nbits w).resetDue = false := by
  have hhead := List.head?_dropWhile_not (fun k => decide (k ≤ s.pc)) s.resets
  unfold State.resetDue State.withFetchWord
  cases hd : s.resets.dropWhile (fun k => decide (k ≤ s.pc)) with
  | nil => rfl
  | cons k ks => simpa [hd] using hhead

/-- A step after a word was placed runs the item it is issued as (log 5). -/
theorem step_withFetchWord (s : State) (nbits w : Nat) :
    step (s.withFetchWord nbits w) = exec (decodeBus (tableItem nbits w)) (s.withFetchWord nbits w) :=
  step_of_nextItem (s.withFetchWord_resetDue nbits w) (s.withFetchWord_nextItem nbits w)

/-- The decoder reads a table word as the item its length makes it. -/
theorem decodeTableWord_eq_some {nbits w : Nat} {i : Instr} (h : decodeTableWord nbits w = some i) :
    ∃ e, encodedOfTable nbits w = some e ∧ decode e = .ok i := by
  unfold decodeTableWord at h
  split at h
  · cases h
  · next e he =>
    split at h
    · next j hj => exact ⟨e, he, hj.trans (congrArg Except.ok (Option.some.inj h))⟩
    · cases h

/-- A 16-bit table word that decodes is the word of a command (`30_encoding.md` R70). -/
theorem decode_of_decodeTableWord_cmd {w : Nat} {i : Instr} (h : decodeTableWord 16 w = some i) :
    decode (.cmd (BitVec.ofNat 16 w)) = .ok i := by
  obtain ⟨e, he, hi⟩ := decodeTableWord_eq_some h
  obtain ⟨-, rfl⟩ : w < 2 ^ 16 ∧ .cmd (BitVec.ofNat 16 w) = e := by simpa [encodedOfTable] using he
  exact hi

/-- A 24-bit table word that decodes is the BUS item of its instruction (`30_encoding.md` R70). -/
theorem decode_of_decodeTableWord_bus {w : Nat} {i : Instr} (h : decodeTableWord 24 w = some i) :
    decode (.bus (BitVec.ofNat 21 w)) = .ok i := by
  obtain ⟨e, he, hi⟩ := decodeTableWord_eq_some h
  obtain ⟨-, rfl⟩ : w < 2 ^ 21 ∧ .bus (BitVec.ofNat 21 w) = e := by simpa [encodedOfTable] using he
  exact hi

/-- Settles O10: the placed item is next and no reset is due; a CMD word's carrier runs the command it spells. -/
theorem placedWordIsRunByTheNextStep : Obligations.PlacedWordIsRunByTheNextStep := by
  refine fun s w i => ⟨fun h => ?_, fun h => ?_⟩
  · obtain ⟨c, hc, rfl⟩ := decode_cmd_eq_ok_iff_exists.mp (decode_of_decodeTableWord_cmd h)
    have hitem : tableItem 16 w = carrier (encodeCmd c) := congrArg carrier hc
    rw [step_withFetchWord, hitem, decodeBus_carrier, exec_wr_cmd_encodeCmd]
  · have hi : decodeBus (BitVec.ofNat 21 w) = i := Except.ok.inj (decode_of_decodeTableWord_bus h)
    rw [step_withFetchWord, ← hi]
    rfl

end Sys2Proof.Machine
end

section
/-! PROOF. The exact extremes of the results: below the band dT is negative, which narrows the pressure's
intermediates to the ranges in which the corrected pressure is largest and smallest. -/

namespace Sys2Proof.Machine

section Extremes

variable {d1 c1 c2 c3 c4 c6 dT t off sens x t2 p : Int}

theorem asr_nonneg {a : Int} (k : Nat) (h : 0 ≤ a) : 0 ≤ asr a k :=
  Int.ediv_nonneg h (by positivity)

/-- A first-order TEMP below 200 means a negative dT (`42_temperature.md` R142). -/
theorem dT_neg_of_firstTemp_lt (h6 : 0 ≤ c6) (ht : firstTemp dT c6 < 200) : dT < 0 := by
  by_contra hdT
  have hprod : 0 ≤ dT * (c6 + 50) := mul_nonneg (not_lt.mp hdT) (by omega)
  have hasr := asr_nonneg 10 hprod
  unfold firstTemp at ht
  omega

theorem pressSens_mem_of_dT_neg (h1 : 0 ≤ c1 ∧ c1 ≤ 32767) (h3 : 0 ≤ c3 ∧ c3 ≤ 1023)
    (hdT : -69368 ≤ dT ∧ dT < 0) : -44725 ≤ pressSens c1 c3 dT ∧ pressSens c1 c3 dT ≤ 57343 := by
  have hprod : -70963464 ≤ c3 * dT ∧ c3 * dT ≤ 0 := mul_mem h3 ⟨hdT.1, hdT.2.le⟩ (by decide) (by decide)
  have h : -69301 ≤ asr (c3 * dT) 10 ∧ asr (c3 * dT) 10 ≤ 0 := asr_mem_of hprod (by decide) (by decide)
  unfold pressSens
  omega

theorem pressX_mem_of_sens_le (hs : -44725 ≤ sens ∧ sens ≤ 57343) (ho : -8655 ≤ off ∧ off ≤ 25051)
    (hd : -32768 ≤ d1 ∧ d1 ≤ 32767) : -164825 ≤ pressX sens off d1 ∧ pressX sens off d1 ≤ 117672 := by
  have hd' : -39936 ≤ d1 - 7168 ∧ d1 - 7168 ≤ 25599 := by omega
  have hprod : -2290050048 ≤ sens * (d1 - 7168) ∧ sens * (d1 - 7168) ≤ 1786137600 :=
    mul_mem hs hd' (by decide) (by decide)
  have h : -139774 ≤ asr (sens * (d1 - 7168)) 14 ∧ asr (sens * (d1 - 7168)) 14 ≤ 109017 :=
    asr_mem_of hprod (by decide) (by decide)
  unfold pressX
  omega

/-- The range of the first-order pressure below the band (`43_pressure.md` R173). -/
theorem firstPres_mem_of_dT_neg (h1 : 0 ≤ c1 ∧ c1 ≤ 32767) (h2 : 0 ≤ c2 ∧ c2 ≤ 4095) (h3 : 0 ≤ c3 ∧ c3 ≤ 1023)
    (h4 : 0 ≤ c4 ∧ c4 ≤ 1023) (hd : -32768 ≤ d1 ∧ d1 ≤ 32767) (hdT : -69368 ≤ dT ∧ dT < 0) :
    -49008 ≤ firstPres c1 c2 c3 c4 d1 dT ∧ firstPres c1 c2 c3 c4 d1 dT ≤ 39272 := by
  have hx := pressX_mem_of_sens_le (pressSens_mem_of_dT_neg h1 h3 hdT)
    (pressOff_mem h2 h4 (by omega : -69368 ≤ dT ∧ dT ≤ 12543)) hd
  have h10 : -1648250 ≤ pressX (pressSens c1 c3 dT) (pressOff c2 c4 dT) d1 * 10 ∧
      pressX (pressSens c1 c3 dT) (pressOff c2 c4 dT) d1 * 10 ≤ 1176720 := by omega
  have h := asr_mem_of (k := 5) (lo' := -51508) (hi' := 36772) h10 (by decide) (by decide)
  unfold firstPres pcomp
  omega

/-- From 3500 on P2 is not negative and grows with T2 (`43_pressure.md` R174). -/
theorem p2Low_mem_of_ge (h2 : 0 ≤ t2 ∧ t2 ≤ 53481) (hp : 3500 ≤ p) : 0 ≤ p2Low t2 p ∧ p2Low t2 p ≤ p2Low 53481 p := by
  have hp' : 0 ≤ p - 3500 := by omega
  have hmono : 3 * t2 * (p - 3500) ≤ 3 * 53481 * (p - 3500) := mul_le_mul_of_nonneg_right (by omega) hp'
  exact ⟨asr_nonneg 14 (mul_nonneg (by omega) hp'), asr_mono 14 hmono⟩

/-- Below 3500 P2 is not positive and falls with T2 (`43_pressure.md` R174). -/
theorem p2Low_mem_of_le (h2 : 0 ≤ t2 ∧ t2 ≤ 53481) (hp : p ≤ 3500) : p2Low 53481 p ≤ p2Low t2 p ∧ p2Low t2 p ≤ 0 := by
  have hp' : p - 3500 ≤ 0 := by omega
  have hanti : 3 * 53481 * (p - 3500) ≤ 3 * t2 * (p - 3500) := mul_le_mul_of_nonpos_right (by omega) hp'
  have hnonpos : 3 * t2 * (p - 3500) ≤ 0 := mul_nonpos_of_nonneg_of_nonpos (by omega) hp'
  exact ⟨asr_mono 14 hanti, asr_mono 14 hnonpos⟩

/-- The pressure corrected below the band lies between the extremes of `43_pressure.md` R179: the correction is
largest at the largest T2, where what is left is linear in the first-order pressure. -/
theorem sub_p2Low_mem (h2 : 0 ≤ t2 ∧ t2 ≤ 53481) (hp : -49008 ≤ p ∧ p ≤ 39272) :
    -311031 ≤ p - p2Low t2 p ∧ p - p2Low t2 p ≤ 465186 := by
  have hlargest : p2Low 53481 p = 160443 * (p - 3500) / 16384 := rfl
  rcases le_total 3500 p with h | h
  · have := p2Low_mem_of_ge h2 h
    omega
  · have := p2Low_mem_of_le h2 h
    omega

/-- The exact range of the results of PRES (`43_pressure.md` R179). -/
theorem presResult_mem_extremes (m : Mode) (h1 : 0 ≤ c1 ∧ c1 ≤ 32767) (h2 : 0 ≤ c2 ∧ c2 ≤ 4095)
    (h3 : 0 ≤ c3 ∧ c3 ≤ 1023) (h4 : 0 ≤ c4 ∧ c4 ≤ 1023) (h6 : 0 ≤ c6 ∧ c6 ≤ 63) (hd : -32768 ≤ d1 ∧ d1 ≤ 32767)
    (hdT : -69368 ≤ dT ∧ dT ≤ 12543) :
    -311031 ≤ presResult m c6 (firstTemp dT c6) (firstPres c1 c2 c3 c4 d1 dT) ∧
      presResult m c6 (firstTemp dT c6) (firstPres c1 c2 c3 c4 d1 dT) ≤ 465186 := by
  have ht := firstTemp_mem hdT h6
  have hp : -58553 ≤ firstPres c1 c2 c3 c4 d1 dT ∧ firstPres c1 c2 c3 c4 d1 dT ≤ 39320 :=
    pcomp_mem (pressX_mem (pressSens_mem h1 h3 hdT) (pressOff_mem h2 h4 hdT) hd)
  rcases presResult_cases m c6 (firstTemp dT c6) (firstPres c1 c2 c3 c4 d1 dT) with h | ⟨hlow, h⟩ | ⟨hhigh, h⟩
  · omega
  · rw [h]
    exact sub_p2Low_mem (t2Low_mem h6 ⟨ht.1, hlow⟩)
      (firstPres_mem_of_dT_neg h1 h2 h3 h4 hd ⟨hdT.1, dT_neg_of_firstTemp_lt h6.1 hlow⟩)
  · have := p2High_mem (t2High_mem h6 ⟨hhigh, ht.2⟩) hp
    omega

end Extremes

/-- Settles O46: the ranges by interval arithmetic, the four attaining inputs by computation. -/
theorem extremeResultsAreExactAndAttained : Obligations.ExtremeResultsAreExactAndAttained := by
  refine ⟨?_, by decide, by decide, by decide, by decide⟩
  intro d1 d2 c1 c2 c3 c4 c5 c6 hd1 hd2 h1 h2 h3 h4 h5 h6 dT t m
  have hdT := deltaT_mem hd2 h5
  exact ⟨tempResult_mem m h6 (firstTemp_mem hdT h6), presResult_mem_extremes m h1 h2 h3 h4 h6 hd1 hdT⟩

/-- Settles O44: each intermediate's interval from the one before it. -/
theorem temperatureIntermediatesStayInTheirRanges : Obligations.TemperatureIntermediatesStayInTheirRanges := by
  intro d2 c5 c6 hd h5 h6 dT t
  have hdT : -69368 ≤ dT ∧ dT ≤ 12543 := deltaT_mem hd h5
  have ht : -7455 ≤ t ∧ t ≤ 1584 := firstTemp_mem hdT h6
  refine ⟨ut1_mem h5, hdT, deltaT_mul_mem hdT h6, ht, fun hband => ?_, fun hband => ?_,
    fun m => tempResult_mem m h6 ht⟩
  · have hlow : -7455 ≤ t ∧ t < 200 := ⟨ht.1, bandOf_eq_low_iff.mp hband⟩
    rw [sq, ← mul_assoc]
    exact ⟨t2Low_product_mem h6 hlow, t2Low_mem h6 hlow⟩
  · have hhigh : 450 < t ∧ t ≤ 1584 := ⟨bandOf_eq_high_iff.mp hband, ht.2⟩
    rw [sq, ← mul_assoc]
    exact ⟨t2High_product_mem h6 hhigh, t2High_mem h6 hhigh⟩

/-- Settles O45: each intermediate's interval from the one before it. -/
theorem pressureIntermediatesStayInTheirRanges : Obligations.PressureIntermediatesStayInTheirRanges := by
  intro d1 d2 c1 c2 c3 c4 c5 c6 hd1 hd2 h1 h2 h3 h4 h5 h6 dT t off sens x p
  have hdT : -69368 ≤ dT ∧ dT ≤ 12543 := deltaT_mem hd2 h5
  have ht : -7455 ≤ t ∧ t ≤ 1584 := firstTemp_mem hdT h6
  have hoff : -8655 ≤ off ∧ off ≤ 25051 := pressOff_mem h2 h4 hdT
  have hsens : -44725 ≤ sens ∧ sens ≤ 69873 := pressSens_mem h1 h3 hdT
  have hx : -195367 ≤ x ∧ x ≤ 117827 := pressX_mem hsens hoff hd1
  have hp : -58553 ≤ p ∧ p ≤ 39320 := pcomp_mem hx
  refine ⟨pressOff_product_mem h4 hdT, hoff, pressSens_product_mem h3 hdT, hsens, pressX_product_mem hsens hd1, hx,
    by omega, hp, fun hband => ?_, fun hband => ?_, fun m => presResult_mem m h6 ht hp⟩
  · have ht2 := t2Low_mem h6 ⟨ht.1, bandOf_eq_low_iff.mp hband⟩
    exact ⟨p2Low_product_mem ht2 hp, p2Low_mem ht2 hp⟩
  · have ht2 := t2High_mem h6 ⟨bandOf_eq_high_iff.mp hband, ht.2⟩
    exact ⟨p2High_product_mem ht2 hp, p2High_mem ht2 hp⟩

theorem t2Low_nonneg {c6 t : Int} (h6 : 0 ≤ c6) (ht : t < 200) : 0 ≤ t2Low c6 t :=
  have hd : 0 ≤ 200 - t := by omega
  asr_nonneg 20 (mul_nonneg (mul_nonneg (by omega) hd) hd)

theorem t2High_nonneg {c6 t : Int} (h6 : 0 ≤ c6) : 0 ≤ t2High c6 t := by
  rw [t2High_eq_sq]
  exact asr_nonneg 20 (mul_nonneg (by omega) (sq_nonneg _))

/-- The correction never raises the temperature (`42_temperature.md` R150 (b)). -/
theorem tempResult_le (m : Mode) {c6 t : Int} (h6 : 0 ≤ c6) : tempResult m c6 t ≤ t := by
  rcases tempResult_cases m c6 t with h | ⟨hlow, h⟩ | ⟨-, h⟩
  · exact h.le
  · have := t2Low_nonneg h6 hlow
    omega
  · have := t2High_nonneg (t := t) h6
    omega

/-- In band IN the temperature is not corrected (`42_temperature.md` R147). -/
theorem tempResult_of_inBand (m : Mode) (c6 : Int) {t : Int} (h : bandOf t = .inBand) : tempResult m c6 t = t := by
  cases m <;> simp [tempResult, h]

/-- The first-order TEMP is non-decreasing in D2 (`42_temperature.md` R150 (d)). -/
theorem firstTemp_deltaT_mono {d d' c6 : Int} (c5 : Int) (h6 : 0 ≤ c6) (h : d ≤ d') :
    firstTemp (deltaT d c5) c6 ≤ firstTemp (deltaT d' c5) c6 := by
  have hdT : deltaT d c5 ≤ deltaT d' c5 := Int.sub_le_sub_right h _
  have hprod : deltaT d c5 * (c6 + 50) ≤ deltaT d' c5 * (c6 + 50) := mul_le_mul_of_nonneg_right hdT (by omega)
  exact Int.add_le_add_left (asr_mono 10 hprod) 200

/-- Settles O47: T2 is not negative, and the floor shift keeps the order. -/
theorem correctionOnlyLowersAndTempIsMonotone : Obligations.CorrectionOnlyLowersAndTempIsMonotone :=
  ⟨fun c6 _ h6 => ⟨tempResult_le .enabled h6, rfl, fun h m => tempResult_of_inBand m c6 h⟩,
    fun _ _ c5 _ h6 h => firstTemp_deltaT_mono c5 h6 h⟩

/-- Settles O38: the floor of a quotient is the largest integer whose multiple is not above the dividend. -/
theorem shiftsAreFloorDivisionAndMultiplication : Obligations.ShiftsAreFloorDivisionAndMultiplication := by
  intro a k
  have hpos : (0 : Int) < 2 ^ k := by positivity
  exact ⟨Int.ediv_mul_le a hpos.ne', Int.lt_ediv_add_one_mul_self a hpos, rfl⟩

end Sys2Proof.Machine
end

section
/-! PROOF. The frames of the commands, what TEMP and PRES depend on, and what keeps the coefficients and RESULT. -/

namespace Sys2Proof.Machine

theorem exists_commandWord {i : Instr} (h : isCommand i = true) : ∃ v, commandWord i = some v := by
  cases i with
  | rd r => cases h
  | wr r v => cases r <;> cases h; exact ⟨v, rfl⟩
  | loadcal => exact ⟨_, rfl⟩
  | temp m => exact ⟨_, rfl⟩
  | pres m => exact ⟨_, rfl⟩

/-- An instruction that issues a command word executes it (`40_bus_access.md` R102). -/
theorem exec_of_commandWord {i : Instr} {v : Word} (h : commandWord i = some v) (s : State) :
    exec i s = .next (executeCmd v s).advance := by
  rcases commandWord_eq_some_iff.mp h with rfl | ⟨c, rfl, rfl⟩
  · exact exec_wr_cmd v s
  · rw [exec_command, executeCmd_of_ok (decodeCmd_encodeCmd c)]

theorem tempCmd_frame (m : Mode) (s : State) :
    (tempCmd m s).coeffs = s.coeffs ∧ (tempCmd m s).status.calValid = s.status.calValid := by
  cases h : s.status.calValid with
  | true => simp [tempCmd_of_calValid m h, h]
  | false => simp [tempCmd_of_not_calValid m h, h]

theorem presCmd_frame (m : Mode) (s : State) :
    (presCmd m s).coeffs = s.coeffs ∧ (presCmd m s).status.calValid = s.status.calValid := by
  cases h : s.status.calValid with
  | true => simp [presCmd_of_calValid m h, h]
  | false => simp [presCmd_of_not_calValid m h, h]

theorem loadcalCmd_result (s : State) : (loadcalCmd s).result = s.result := by
  cases h : s.status.calValid with
  | true => simp [loadcalCmd_of_calValid h]
  | false => simp [loadcalCmd_of_not_calValid h]

/-- CMD and the staging registers read as before where no staging register was written. -/
theorem readReg_of_staging_eq {s t : State} (h : t.staging = s.staging) {r : Reg}
    (hr : r ∈ [Reg.cmd, .w0, .w1, .w2, .w3, .d1, .d2]) : t.readReg r = s.readReg r := by
  simp only [List.mem_cons, List.not_mem_nil, or_false] at hr
  rcases hr with rfl | rfl | rfl | rfl | rfl | rfl | rfl <;> simp only [State.readReg, h]

/-- Settles O34: every command executes its word, which leaves the staging registers and the host's side; the rest is
what each of the three commands leaves. -/
theorem commandsLeaveTheRestUnchanged : Obligations.CommandsLeaveTheRestUnchanged := by
  intro s i hi
  obtain ⟨v, hv⟩ := exists_commandWord hi
  obtain ⟨hstaging, hprogram, -, htrace, hresets⟩ := executeCmd_frame v s
  have hstaging' : (executeCmd v s).advance.staging = s.staging := hstaging
  have hrun {c : Command} (hc : i = c.toInstr) : (executeCmd v s).advance = (runCommand c s).advance :=
    Host.Outcome.next.inj ((exec_of_commandWord hv s).symm.trans (hc ▸ exec_command c s))
  refine ⟨_, exec_of_commandWord hv s, fun r hr => readReg_of_staging_eq hstaging' hr, hstaging', hprogram, htrace,
    hresets, ?_, fun hc => ?_⟩
  · rintro m (hc | hc)
    · rw [hrun (c := .temp m) hc]
      exact tempCmd_frame m s
    · rw [hrun (c := .pres m) hc]
      exact presCmd_frame m s
  · rw [hrun (c := .loadcal) hc]
    exact loadcalCmd_result s

/-! What TEMP and PRES read of a state. -/

section Operands

variable {s s' : State}

theorem State.dT_congr (hd2 : s'.staging.d2 = s.staging.d2) (hc5 : s'.coeffs.c5 = s.coeffs.c5) : s'.dT = s.dT := by
  simp [State.dT, State.countD2, hd2, hc5]

theorem State.firstTemp_congr (hd2 : s'.staging.d2 = s.staging.d2) (hc5 : s'.coeffs.c5 = s.coeffs.c5)
    (hc6 : s'.coeffs.c6 = s.coeffs.c6) : s'.firstTemp = s.firstTemp := by
  simp [State.firstTemp, State.dT_congr hd2 hc5, hc6]

theorem State.firstPres_congr (hd1 : s'.staging.d1 = s.staging.d1) (hd2 : s'.staging.d2 = s.staging.d2)
    (hc : s'.coeffs = s.coeffs) : s'.firstPres = s.firstPres := by
  simp [State.firstPres, State.countD1, State.dT_congr hd2 (congrArg Coeffs.c5 hc), hd1, hc]

/-- The outcome of TEMP depends on D2, C5 and C6 (`42_temperature.md` R150 (c)). -/
theorem tempCmd_congr (m : Mode) (hcal : s.status.calValid = true) (hcal' : s'.status.calValid = true)
    (hd2 : s'.staging.d2 = s.staging.d2) (hc5 : s'.coeffs.c5 = s.coeffs.c5) (hc6 : s'.coeffs.c6 = s.coeffs.c6) :
    (tempCmd m s').result = (tempCmd m s).result ∧ (tempCmd m s').status = (tempCmd m s).status := by
  simp [tempCmd_of_calValid m hcal, tempCmd_of_calValid m hcal', Status.computed, hcal, hcal',
    State.firstTemp_congr hd2 hc5 hc6, hc6]

/-- The outcome of PRES depends on D1, D2 and the coefficients (`43_pressure.md` R178 (a)). -/
theorem presCmd_congr (m : Mode) (hcal : s.status.calValid = true) (hcal' : s'.status.calValid = true)
    (hd1 : s'.staging.d1 = s.staging.d1) (hd2 : s'.staging.d2 = s.staging.d2) (hc : s'.coeffs = s.coeffs) :
    (presCmd m s').result = (presCmd m s).result ∧ (presCmd m s').status = (presCmd m s).status := by
  have hfirstTemp := State.firstTemp_congr hd2 (congrArg Coeffs.c5 hc) (congrArg Coeffs.c6 hc)
  simp [presCmd_of_calValid m hcal, presCmd_of_calValid m hcal', Status.computed, hcal, hcal', hfirstTemp,
    State.firstPres_congr hd1 hd2 hc, hc]

end Operands

/-- Settles O48, by what TEMP reads. -/
theorem tempDependsOnlyOnItsOperands : Obligations.TempDependsOnlyOnItsOperands :=
  fun _ _ m hcal hcal' hd2 hc5 hc6 => ⟨_, _, rfl, rfl, tempCmd_congr m hcal hcal' hd2 hc5 hc6⟩

/-- Settles O49, by what PRES reads: neither PRES itself, nor a read, nor an ignored write changes it. -/
theorem presDependsOnlyOnItsOperands : Obligations.PresDependsOnlyOnItsOperands := by
  refine ⟨fun s s' m hcal hcal' hd1 hd2 hc => ⟨_, _, rfl, rfl, presCmd_congr m hcal hcal' hd1 hd2 hc⟩,
    fun s m r q v hcal hq => ?_⟩
  obtain ⟨hcoeffs, hcalValid⟩ := presCmd_frame m s
  have hstaging : (presCmd m s).staging = s.staging := by simp [presCmd_of_calValid m hcal]
  refine ⟨_, _, _, _, rfl, exec_rd r _, exec_wr_readOnly hq _ v, rfl, ?_⟩
  exact presCmd_congr m hcal (hcalValid.trans hcal) (congrArg Staging.d1 hstaging) (congrArg Staging.d2 hstaging)
    hcoeffs

/-- With MODE = 0 or in band IN the pressure is not corrected (`43_pressure.md` R176). -/
theorem presResult_of_disabled_or_inBand {m : Mode} {t : Int} (c6 p : Int) (h : m = .disabled ∨ bandOf t = .inBand) :
    presResult m c6 t p = p := by
  rcases h with rfl | hband
  · rfl
  · cases m <;> simp [presResult, hband]

/-- Settles O50: STATUS after PRES is STATUS after TEMP. -/
theorem presAndTempAgreeOnTheBand : Obligations.PresAndTempAgreeOnTheBand :=
  fun s m => ⟨_, _, rfl, rfl, (presCmd_status m s).symm, fun c6 p => presResult_of_disabled_or_inBand c6 p⟩

/-! Who writes the coefficients and RESULT. -/

/-- A command word that changes the coefficients is LOADCAL's, and opens a session (`41_unpack.md` R120). -/
theorem executeCmd_coeffs_writer {v : Word} {s : State} (hne : (executeCmd v s).coeffs ≠ s.coeffs) :
    s.status.calValid = false ∧ v = encodeCmd .loadcal := by
  rcases executeCmd_cases v s with ⟨c, h, -⟩ | ⟨hcal, hd, -⟩ | ⟨-, m, -, h⟩ | ⟨-, m, -, h⟩
  · simp [h] at hne
  · exact ⟨hcal, decodeCmd_eq_ok_iff.mp hd⟩
  · simp [h] at hne
  · simp [h] at hne

/-- A command word that changes RESULT is TEMP's or PRES's, in an open session (`10_state.md` R30). -/
theorem executeCmd_result_writer {v : Word} {s : State} (hne : (executeCmd v s).result ≠ s.result) :
    s.status.calValid = true ∧ ∃ m, v = encodeCmd (.temp m) ∨ v = encodeCmd (.pres m) := by
  rcases executeCmd_cases v s with ⟨c, h, -⟩ | ⟨-, -, h⟩ | ⟨hcal, m, hd, -⟩ | ⟨hcal, m, hd, -⟩
  · simp [h] at hne
  · simp [h] at hne
  · exact ⟨hcal, m, .inl (decodeCmd_eq_ok_iff.mp hd)⟩
  · exact ⟨hcal, m, .inr (decodeCmd_eq_ok_iff.mp hd)⟩

/-- A step is the reset event, the write of a word to CMD, or it leaves the coefficients, RESULT and STATUS. -/
theorem step_command_or_unchanged {s t : State} (h : step s = .next t) :
    t = s.applyReset ∨ (∃ v, s.program[s.pc]? = some (carrier v) ∧ t = (executeCmd v s).advance) ∨
      (t.coeffs = s.coeffs ∧ t.result = s.result ∧ t.status = s.status) := by
  rcases step_cases h with ⟨-, ht⟩ | ⟨-, b, hb, he⟩
  · exact .inl ht
  · rcases exec_command_or_unchanged he with ⟨v, hv, ht⟩ | hunchanged
    · exact .inr (.inl ⟨v, eq_carrier_of_commandWord hv ▸ hb, ht⟩)
    · exact .inr (.inr hunchanged)

/-- Settles O33: the only command word that changes a coefficient is LOADCAL's, before a calibration. -/
theorem coefficientsChangeOnlyByLoadcalOrReset : Obligations.CoefficientsChangeOnlyByLoadcalOrReset := by
  intro s t h hne
  rcases step_command_or_unchanged h with ht | ⟨v, hitem, rfl⟩ | ⟨hcoeffs, -, -⟩
  · exact .inl ht
  · obtain ⟨hcal, rfl⟩ := executeCmd_coeffs_writer hne
    exact .inr ⟨hcal, hitem⟩
  · exact absurd hcoeffs hne

/-- A word that spells no computation, and any word before a calibration, leaves RESULT and clears RES_VALID
(`70_reset_and_hazards.md` section 3). -/
theorem executeCmd_result_of_not_computing {v : Word} {s : State}
    (h : decode (.cmd v) = .ok .loadcal ∨ (∃ e, decode (.cmd v) = .error e) ∨ s.status.calValid = false) :
    (executeCmd v s).result = s.result ∧ (executeCmd v s).status.resValid = false := by
  rcases executeCmd_cases v s with ⟨c, he, -⟩ | ⟨-, -, he⟩ | ⟨hcal, m, hd, -⟩ | ⟨hcal, m, hd, -⟩
  · simp [he]
  · simp [he]
  · have hdecode : decode (.cmd v) = .ok (.temp m) := decode_cmd_eq_ok_iff.mpr hd
    simp [hdecode, hcal] at h
  · have hdecode : decode (.cmd v) = .ok (.pres m) := decode_cmd_eq_ok_iff.mpr hd
    simp [hdecode, hcal] at h

/-- The items that carry the words of TEMP and PRES (`30_encoding.md` R82). -/
theorem carrier_mem_of_temp_or_pres {v : Word} {m : Mode} (h : v = encodeCmd (.temp m) ∨ v = encodeCmd (.pres m)) :
    carrier v ∈ [(0x100002 : BusItem), 0x100012, 0x100003, 0x100013] := by
  rcases h with rfl | rfl <;> cases m <;> decide

/-- Settles O51: by what a command word can do to RESULT; a store and a read leave it, and a step runs one of these or
is the reset event. -/
theorem resultSurvivesEverythingButTempPresAndReset : Obligations.ResultSurvivesEverythingButTempPresAndReset := by
  refine ⟨fun s v h => ⟨_, exec_wr_cmd v s, executeCmd_result_of_not_computing h⟩, fun s r v hr => ?_,
    fun s r => ⟨_, exec_rd r s, rfl, rfl⟩, fun s t h hne => ?_, fun s => rfl⟩
  · obtain ⟨-, hresult, hstatus, -⟩ := storeReg_frame s r v
    exact ⟨_, exec_wr_of_ne_cmd hr v s, hresult, hstatus⟩
  · rcases step_command_or_unchanged h with ht | ⟨v, hitem, rfl⟩ | ⟨-, hresult, -⟩
    · exact .inl ht
    · obtain ⟨hcal, m, hv⟩ := executeCmd_result_writer hne
      exact .inr ⟨hcal, carrier v, carrier_mem_of_temp_or_pres hv, hitem⟩
    · exact absurd hresult hne

end Sys2Proof.Machine
end

section
/-! PROOF. The invariant of the machine, which every step keeps, and the runs without a reset. -/

namespace Sys2Proof.Machine

theorem statusInv_failed {c : ErrCode} {st : Status} (hnot : c = .calNotValid → st.calValid = false)
    (hlocked : c = .calLocked → st.calValid = true) : StatusInv (st.failed c) :=
  ⟨fun _ => ⟨rfl, rfl⟩, nofun, nofun, hnot, hlocked⟩

theorem statusInv_computed (m : Mode) (b : Band) {st : Status} (h : st.calValid = true) :
    StatusInv (st.computed m b) := by
  refine ⟨nofun, fun _ => ⟨rfl, h⟩, fun hcorr => ?_, nofun, fun _ => h⟩
  rw [Status.computed_corr, corrOf_eq_decide] at hcorr
  exact (of_decide_eq_true hcorr).2

theorem statusInv_calibrated : StatusInv Status.calibrated := by decide

/-- A completed TEMP leaves RESULT in its range (`43_pressure.md` R179). -/
theorem resultInv_complete_tempResult (s : State) (m : Mode) (b : Band) :
    ResultInv (s.complete m b (tempResult m (zext s.coeffs.c6) s.firstTemp)) := by
  have hmem := tempResult_mem m (zext_mem s.coeffs.c6) s.firstTemp_mem
  rw [ResultInv, State.complete_result, s.toInt_tempResult m]
  omega

/-- A completed PRES leaves RESULT in its range (`43_pressure.md` R179). -/
theorem resultInv_complete_presResult (s : State) (m : Mode) (b : Band) :
    ResultInv (s.complete m b (presResult m (zext s.coeffs.c6) s.firstTemp s.firstPres)) := by
  rw [ResultInv, State.complete_result, s.toInt_presResult m]
  exact presResult_mem_extremes m (zext_mem s.coeffs.c1) (zext_mem s.coeffs.c2) (zext_mem s.coeffs.c3)
    (zext_mem s.coeffs.c4) (zext_mem s.coeffs.c6) (sext16_mem _) s.dT_mem

/-- The invariant speaks of the coefficients, RESULT and STATUS. -/
theorem machineInv_congr {s t : State} (hcoeffs : t.coeffs = s.coeffs) (hresult : t.result = s.result)
    (hstatus : t.status = s.status) : MachineInv t ↔ MachineInv s := by
  simp only [MachineInv, UncalibratedInv, ResultInv, hcoeffs, hresult, hstatus]

theorem machineInv_reset : MachineInv State.reset := by decide

/-- A calibrated block meets the part of the invariant about a block without a calibration. -/
theorem uncalibratedInv_of_calValid {s : State} (h : s.status.calValid = true) : UncalibratedInv s :=
  fun hnot => absurd (h.symm.trans hnot) (by decide)

/-- Every command word keeps the invariant, by the four things it can do. -/
theorem executeCmd_keeps_machineInv (v : Word) {s : State} (hs : MachineInv s) : MachineInv (executeCmd v s) := by
  obtain ⟨-, huncal, hresult⟩ := hs
  rcases executeCmd_cases v s with ⟨c, h, hnot, hlocked, -⟩ | ⟨-, -, h⟩ | ⟨hcal, m, -, h⟩ | ⟨hcal, m, -, h⟩ <;> rw [h]
  · exact ⟨statusInv_failed hnot hlocked, huncal, hresult⟩
  · exact ⟨statusInv_calibrated, uncalibratedInv_of_calValid rfl, hresult⟩
  · exact ⟨statusInv_computed m _ hcal, uncalibratedInv_of_calValid hcal, resultInv_complete_tempResult s m _⟩
  · exact ⟨statusInv_computed m _ hcal, uncalibratedInv_of_calValid hcal, resultInv_complete_presResult s m _⟩

/-- Settles O56: the reset event restores the invariant, a command word keeps it, and every other transaction leaves
what it speaks of. -/
theorem everyStepKeepsTheInvariant : Obligations.EveryStepKeepsTheInvariant := by
  intro s t hs h
  rcases step_command_or_unchanged h with rfl | ⟨v, -, rfl⟩ | ⟨hcoeffs, hresult, hstatus⟩
  · exact (machineInv_congr rfl rfl rfl).mpr machineInv_reset
  · exact (machineInv_congr rfl rfl rfl).mpr (executeCmd_keeps_machineInv v hs)
  · exact (machineInv_congr hcoeffs hresult hstatus).mpr hs

/-- Settles O55: a launch state is the reset state but for the host's list and its resets. -/
theorem invariantHoldsAtReset : Obligations.InvariantHoldsAtReset :=
  ⟨machineInv_reset, fun _ _ => (machineInv_congr rfl rfl rfl).mpr machineInv_reset⟩

/-- Settles O23: with no result the word is that of ERR and CAL_VALID, with a result that of BAND and CORR. -/
theorem statusShowsOnlyTheElevenKeyWords : Obligations.StatusShowsOnlyTheElevenKeyWords := by
  rintro s ⟨⟨hnone, hsome, hcorr, hnot, hlocked⟩, -, -⟩
  generalize s.status = st at *
  obtain ⟨calValid, resValid, band, corr, err⟩ := st
  cases resValid with
  | false =>
    obtain ⟨hband, hcorr'⟩ := hnone rfl
    subst hband hcorr'
    cases err with
    | ok => cases calValid <;> decide
    | illegalCmd => cases calValid <;> decide
    | calNotValid => obtain rfl : calValid = false := hnot rfl; decide
    | calLocked => obtain rfl : calValid = true := hlocked rfl; decide
  | true =>
    obtain ⟨herr, hcal⟩ := hsome rfl
    subst herr hcal
    cases band with
    | inBand =>
      obtain rfl : corr = false := by simpa using hcorr
      decide
    | low => cases corr <;> decide
    | high => cases corr <;> decide

/-- A step with no reset scheduled is a transaction, and schedules none (log 3). -/
theorem step_of_no_resets {s t : State} (hresets : s.resets = []) (h : step s = .next t) :
    (∃ i, exec i s = .next t) ∧ t.resets = [] := by
  rcases step_cases h with ⟨hdue, -⟩ | ⟨-, b, -, he⟩
  · rw [State.resetDue_of_resets_eq_nil hresets] at hdue
    cases hdue
  · obtain ⟨u, hu, -, -, hkeep⟩ := exec_completes (decodeBus b) s
    obtain rfl := Host.Outcome.next.inj (he.symm.trans hu)
    exact ⟨⟨_, he⟩, hkeep.trans hresets⟩

/-- Settles O58, by induction on the number of steps: each is a transaction, and none ends or changes a session. -/
theorem calibrationIsImmutableUntilReset : Obligations.CalibrationIsImmutableUntilReset := by
  intro s t n
  induction n generalizing s with
  | zero =>
    intro hcal _ h
    obtain rfl := Host.Outcome.next.inj ((run_zero s).symm.trans h)
    exact ⟨rfl, hcal⟩
  | succ n ih =>
    intro hcal hresets h
    obtain ⟨u, hu, hrun⟩ := run_succ_next h
    obtain ⟨⟨i, hi⟩, hresets'⟩ := step_of_no_resets hresets hu
    obtain ⟨hcoeffs, hcal'⟩ := ih u (exec_keeps_calValid hi hcal) hresets' hrun
    exact ⟨hcoeffs.trans (exec_keeps_coeffs hi hcal), hcal'⟩

/-- With no reset scheduled and an item left, a step completes and goes on to the next item (`60_exceptions.md`
section 1). -/
theorem step_completes {s : State} (hresets : s.resets = []) (hpc : s.pc < s.program.length) :
    ∃ t, step s = .next t ∧ t.pc = s.pc + 1 ∧ t.program = s.program ∧ t.resets = [] := by
  obtain ⟨t, ht, hpc', hprogram, hresets'⟩ := exec_completes (decodeBus s.program[s.pc]) s
  have hstep := step_of_nextItem (State.resetDue_of_resets_eq_nil hresets) (List.getElem?_eq_getElem hpc)
  exact ⟨t, hstep.trans ht, hpc', hprogram, hresets'.trans hresets⟩

/-- Settles O57, by induction on the items left. -/
theorem everyProgramRunsToItsEnd : Obligations.EveryProgramRunsToItsEnd := by
  intro s n
  induction n generalizing s with
  | zero =>
    intro hresets hend
    exact ⟨s, run_zero s, hend, rfl, hresets,
      stepStopsAfterTheLastItem s (State.resetDue_of_resets_eq_nil hresets) hend.ge⟩
  | succ n ih =>
    intro hresets hleft
    obtain ⟨u, hu, hpc, hprogram, hresets'⟩ := step_completes hresets (by omega)
    obtain ⟨t, hrun, htpc, htprogram, htresets, hstop⟩ := ih u hresets' (by rw [hpc, hprogram]; omega)
    exact ⟨t, (run_succ n hu).trans hrun, htpc.trans (congrArg List.length hprogram), htprogram.trans hprogram,
      htresets, hstop⟩

end Sys2Proof.Machine
end

section
/-! PROOF. The unpack of the calibration words and its inverse, both as bit fields put together. -/

namespace Sys2Proof.Machine

/-- A zero-extended field shifted right is its upper part, zero-extended. -/
theorem setWidth_ushiftRight {n : Nat} (x : BitVec n) (k l : Nat) (h : n = l + k) (hn : n ≤ 16) :
    x.setWidth 16 >>> k = (x.extractLsb' k l).setWidth 16 := by
  have hx : x.toNat < 2 ^ (l + k) := h ▸ x.isLt
  have hx16 : x.toNat < 2 ^ 16 := x.isLt.trans_le (Nat.pow_le_pow_right (by decide) hn)
  have hshift : x.toNat >>> k < 2 ^ l := by
    rw [Nat.shiftRight_eq_div_pow]
    exact Nat.div_lt_of_lt_mul (by rwa [← pow_add, Nat.add_comm])
  apply BitVec.eq_of_toNat_eq
  rw [BitVec.toNat_ushiftRight, BitVec.toNat_setWidth, BitVec.toNat_setWidth, BitVec.extractLsb'_toNat,
    Nat.mod_eq_of_lt hx16, Nat.mod_eq_of_lt hshift,
    Nat.mod_eq_of_lt ((Nat.shiftRight_le x.toNat k).trans_lt hx16)]

/-- The low bits of a zero-extended field are its lower part, zero-extended. -/
theorem setWidth_and_lowMask_eq {n : Nat} (x : BitVec n) (k : Nat) (mask : Word)
    (h : mask = (BitVec.allOnes k).setWidth 16) (hk : k ≤ n) (hn : n ≤ 16) :
    x.setWidth 16 &&& mask = (x.extractLsb' 0 k).setWidth 16 := by
  rw [and_lowMask k mask h, BitVec.setWidth_setWidth_of_le _ (hk.trans hn), BitVec.setWidth_eq_extractLsb' hk]

/-! The words of the inverse unpack, each two bit fields put together (`41_unpack.md` R127). -/

theorem packW0_eq (c : Coeffs) : packW0 c = c.c1 ++ c.c5.extractLsb' 10 1 := by
  rw [packW0, setWidth_ushiftRight c.c5 10 1 rfl (by decide), ← BitVec.setWidth_append_eq_shiftLeft_setWidth_or,
    BitVec.setWidth_eq]

theorem packW1_eq (c : Coeffs) : packW1 c = c.c5.extractLsb' 0 10 ++ c.c6 := by
  rw [packW1, setWidth_and_lowMask_eq c.c5 10 0x3FF rfl (by decide) (by decide),
    ← BitVec.setWidth_append_eq_shiftLeft_setWidth_or, BitVec.setWidth_eq]

theorem packW2_eq (c : Coeffs) : packW2 c = c.c4 ++ c.c2.extractLsb' 6 6 := by
  rw [packW2, setWidth_ushiftRight c.c2 6 6 rfl (by decide), ← BitVec.setWidth_append_eq_shiftLeft_setWidth_or,
    BitVec.setWidth_eq]

theorem packW3_eq (c : Coeffs) : packW3 c = c.c3 ++ c.c2.extractLsb' 0 6 := by
  rw [packW3, setWidth_and_lowMask_eq c.c2 6 0x3F rfl (by decide) (by decide),
    ← BitVec.setWidth_append_eq_shiftLeft_setWidth_or, BitVec.setWidth_eq]

/-- A value cut in two and put together again. -/
theorem append_extractLsb'_eq (n k : Nat) (x : BitVec (n + k)) : x.extractLsb' k n ++ x.extractLsb' 0 k = x := by
  rw [BitVec.extractLsb'_append_extractLsb'_eq_extractLsb' (by omega)]
  exact BitVec.extractLsb'_eq_self

/-- Settles O37: both ways cut a value into two fields and put the fields together again. -/
theorem unpackIsABijection : Obligations.UnpackIsABijection := by
  refine ⟨fun w0 w1 w2 w3 => ?_, fun c => ?_⟩
  · rw [packW0_eq, packW1_eq, packW2_eq, packW3_eq, unpack_eq_fields]
    simp only [BitVec.extractLsb'_append_eq_left, BitVec.extractLsb'_append_eq_right]
    exact ⟨append_extractLsb'_eq 15 1 w0, append_extractLsb'_eq 10 6 w1, append_extractLsb'_eq 10 6 w2,
      append_extractLsb'_eq 10 6 w3⟩
  · rw [unpack_eq_fields, packW0_eq, packW1_eq, packW2_eq, packW3_eq]
    simp only [BitVec.extractLsb'_append_eq_left, BitVec.extractLsb'_append_eq_right]
    rw [append_extractLsb'_eq 6 6 c.c2, append_extractLsb'_eq 1 10 c.c5]

/-- Settles O19: the two bytes of the link are the halves of the value. -/
theorem byteLinkSendsMostSignificantByteFirst : Obligations.ByteLinkSendsMostSignificantByteFirst := by
  intro v
  have hvalue : v.toNat = (v.extractLsb' 8 8).toNat * 256 + (v.extractLsb' 0 8).toNat := by
    rw [BitVec.extractLsb'_toNat, BitVec.extractLsb'_toNat, Nat.shiftRight_eq_div_pow]
    omega
  exact ⟨_, _, rfl, hvalue, append_extractLsb'_eq 8 8 v⟩

end Sys2Proof.Machine
end

section
/-! PROOF. The n-bit datapath: it computes modulo 2^n, so it is exact where every shifted and every compared value
fits n bits, as all do from 37 bits on (`42_temperature.md` R151, `43_pressure.md` R179). -/

namespace Sys2Proof.Machine

/-- The integers of 37-bit two's complement. -/
abbrev Fits37 (x : Int) : Prop := -68719476736 ≤ x ∧ x < 68719476736

theorem Fits37.of_mem {x lo hi : Int} (h : lo ≤ x ∧ x ≤ hi) (hlo : -68719476736 ≤ lo) (hhi : hi < 68719476736) :
    Fits37 x :=
  ⟨hlo.trans h.1, h.2.trans_lt hhi⟩

section Patterns

variable {n k : Nat} {x y : Int}

theorem ofInt_sub (x y : Int) : BitVec.ofInt n (x - y) = BitVec.ofInt n x - BitVec.ofInt n y := by
  rw [Int.sub_eq_add_neg, BitVec.ofInt_add, BitVec.ofInt_neg, BitVec.sub_eq_add_neg]

theorem setWidth_eq_ofInt (v : BitVec k) : v.setWidth n = BitVec.ofInt n (zext v) := by
  rw [zext, BitVec.ofInt_natCast, BitVec.ofNat_toNat]

theorem ofNat_eq_ofInt (k : Nat) : BitVec.ofNat n k = BitVec.ofInt n k :=
  (BitVec.ofInt_natCast n k).symm

theorem setWidth_shiftLeft_eq_ofInt (v : BitVec k) (i : Nat) :
    v.setWidth n <<< i = BitVec.ofInt n (shl (zext v) i) := by
  have hshl : shl (zext v) i = ((v.toNat * 2 ^ i : Nat) : Int) := by simp [shl, zext]
  rw [hshl, BitVec.ofInt_natCast]
  apply BitVec.eq_of_toNat_eq
  simp [Nat.shiftLeft_eq]

/-- A value of 37 bits is read back from its pattern of 37 bits or more. -/
theorem toInt_ofInt_of_fits37 (hn : 37 ≤ n) (hx : Fits37 x) : (BitVec.ofInt n x).toInt = x := by
  have hpow : (2 : Int) ^ 36 ≤ 2 ^ (n - 1) := pow_le_pow_right₀ (by decide) (by omega)
  obtain ⟨hlo, hhi⟩ := hx
  exact BitVec.toInt_ofInt_eq_self (by omega) (by omega) (by omega)

/-- The arithmetic right shift of a value of 37 bits is exact. -/
theorem sshiftRight_ofInt (hn : 37 ≤ n) (hx : Fits37 x) (k : Nat) :
    (BitVec.ofInt n x).sshiftRight k = BitVec.ofInt n (asr x k) := by
  rw [← BitVec.ofInt_toInt (x := (BitVec.ofInt n x).sshiftRight k), BitVec.toInt_sshiftRight,
    toInt_ofInt_of_fits37 hn hx, asr_eq_shiftRight]

/-- The signed comparison of values of 37 bits is exact. -/
theorem slt_ofInt (hn : 37 ≤ n) (hx : Fits37 x) (hy : Fits37 y) :
    (BitVec.ofInt n x).slt (BitVec.ofInt n y) = decide (x < y) := by
  rw [BitVec.slt_eq_decide, toInt_ofInt_of_fits37 hn hx, toInt_ofInt_of_fits37 hn hy]

end Patterns

/-! Each operation of the datapath on patterns of integers is the pattern of the exact operation: the value it shifts
or compares is in its row of the tables of `42_temperature.md` section 5 and `43_pressure.md` section 4, and so fits 37
bits. -/

section Operations

variable {n : Nat}

theorem toInt_mem (v : Word) : -32768 ≤ v.toInt ∧ v.toInt ≤ 32767 := sext16_eq_toInt v ▸ sext16_mem v

theorem deltaT_registers_mem (d2 : Word) (c5 : BitVec 11) :
    -69368 ≤ deltaT d2.toInt (zext c5) ∧ deltaT d2.toInt (zext c5) ≤ 12543 :=
  deltaT_mem (toInt_mem d2) (zext_mem c5)

theorem firstPres_registers_mem {dT : Int} (d1 : Word) (c : Coeffs) (hdT : -69368 ≤ dT ∧ dT ≤ 12543) :
    -58553 ≤ firstPres (zext c.c1) (zext c.c2) (zext c.c3) (zext c.c4) d1.toInt dT ∧
      firstPres (zext c.c1) (zext c.c2) (zext c.c3) (zext c.c4) d1.toInt dT ≤ 39320 :=
  pcomp_mem (pressX_mem (pressSens_mem (zext_mem c.c1) (zext_mem c.c3) hdT)
    (pressOff_mem (zext_mem c.c2) (zext_mem c.c4) hdT) (toInt_mem d1))

theorem deltaTN_eq_ofInt (d2 : Word) (c5 : BitVec 11) :
    deltaTN n d2 c5 = BitVec.ofInt n (deltaT d2.toInt (zext c5)) := by
  rw [deltaT, ut1, ofInt_sub, BitVec.ofInt_add, deltaTN, setWidth_shiftLeft_eq_ofInt]
  rfl

variable {dT t t2 p x sens off : Int} (hn : 37 ≤ n)
include hn

theorem firstTempN_ofInt (c6 : BitVec 6) (hdT : -69368 ≤ dT ∧ dT ≤ 12543) :
    firstTempN n (BitVec.ofInt n dT) c6 = BitVec.ofInt n (firstTemp dT (zext c6)) := by
  have h : Fits37 (dT * (zext c6 + 50)) := .of_mem (deltaT_mul_mem hdT (zext_mem c6)) (by decide) (by decide)
  simp only [firstTempN, setWidth_eq_ofInt, ofNat_eq_ofInt, Nat.cast_ofNat, ← BitVec.ofInt_add, ← BitVec.ofInt_mul]
  rw [sshiftRight_ofInt hn h, ← BitVec.ofInt_add, firstTemp]

theorem bandOfN_ofInt (ht : -7455 ≤ t ∧ t ≤ 1584) : bandOfN (BitVec.ofInt n t) = bandOf t := by
  have h : Fits37 t := .of_mem ht (by decide) (by decide)
  simp only [bandOfN, ofNat_eq_ofInt, Nat.cast_ofNat]
  rw [slt_ofInt hn h (by decide), slt_ofInt hn (by decide) h]
  simp [bandOf]

theorem t2LowN_ofInt (c6 : BitVec 6) (ht : -7455 ≤ t ∧ t < 200) :
    t2LowN c6 (BitVec.ofInt n t) = BitVec.ofInt n (t2Low (zext c6) t) := by
  have h : Fits37 (11 * (zext c6 + 24) * (200 - t) * (200 - t)) :=
    .of_mem (t2Low_product_mem (zext_mem c6) ht) (by decide) (by decide)
  simp only [t2LowN, setWidth_eq_ofInt, ofNat_eq_ofInt, Nat.cast_ofNat, ← BitVec.ofInt_add, ← BitVec.ofInt_mul,
    ← ofInt_sub]
  rw [sshiftRight_ofInt hn h, t2Low]

theorem t2HighN_ofInt (c6 : BitVec 6) (ht : 450 < t ∧ t ≤ 1584) :
    t2HighN c6 (BitVec.ofInt n t) = BitVec.ofInt n (t2High (zext c6) t) := by
  have h : Fits37 (3 * (zext c6 + 24) * (450 - t) * (450 - t)) :=
    .of_mem (t2High_product_mem (zext_mem c6) ht) (by decide) (by decide)
  simp only [t2HighN, setWidth_eq_ofInt, ofNat_eq_ofInt, Nat.cast_ofNat, ← BitVec.ofInt_add, ← BitVec.ofInt_mul,
    ← ofInt_sub]
  rw [sshiftRight_ofInt hn h, t2High]

theorem pressOffN_ofInt (c2 : BitVec 12) (c4 : BitVec 10) (hdT : -69368 ≤ dT ∧ dT ≤ 12543) :
    pressOffN c2 c4 (BitVec.ofInt n dT) = BitVec.ofInt n (pressOff (zext c2) (zext c4) dT) := by
  have h : Fits37 ((zext c4 - 512) * dT) := .of_mem (pressOff_product_mem (zext_mem c4) hdT) (by decide) (by decide)
  simp only [pressOffN, setWidth_eq_ofInt, ofNat_eq_ofInt, Nat.cast_ofNat, ← BitVec.ofInt_mul, ← ofInt_sub]
  rw [sshiftRight_ofInt hn h, ← BitVec.ofInt_add, pressOff]

theorem pressSensN_ofInt (c1 : BitVec 15) (c3 : BitVec 10) (hdT : -69368 ≤ dT ∧ dT ≤ 12543) :
    pressSensN c1 c3 (BitVec.ofInt n dT) = BitVec.ofInt n (pressSens (zext c1) (zext c3) dT) := by
  have h : Fits37 (zext c3 * dT) := .of_mem (pressSens_product_mem (zext_mem c3) hdT) (by decide) (by decide)
  simp only [pressSensN, setWidth_eq_ofInt, ofNat_eq_ofInt, Nat.cast_ofNat, ← BitVec.ofInt_mul]
  rw [sshiftRight_ofInt hn h, ← BitVec.ofInt_add, ← BitVec.ofInt_add, pressSens]

theorem pressXN_ofInt (d1 : Word) (hsens : -44725 ≤ sens ∧ sens ≤ 69873) :
    pressXN (BitVec.ofInt n sens) (BitVec.ofInt n off) d1 = BitVec.ofInt n (pressX sens off d1.toInt) := by
  have h : Fits37 (sens * (d1.toInt - 7168)) :=
    .of_mem (pressX_product_mem hsens (toInt_mem d1)) (by decide) (by decide)
  simp only [pressXN, BitVec.signExtend, ofNat_eq_ofInt, Nat.cast_ofNat, ← BitVec.ofInt_mul, ← ofInt_sub]
  rw [sshiftRight_ofInt hn h, ← ofInt_sub, pressX]

theorem pcompN_ofInt (hx : -195367 ≤ x ∧ x ≤ 117827) : pcompN (BitVec.ofInt n x) = BitVec.ofInt n (pcomp x) := by
  have h : Fits37 (x * 10) := by omega
  simp only [pcompN, ofNat_eq_ofInt, Nat.cast_ofNat, ← BitVec.ofInt_mul]
  rw [sshiftRight_ofInt hn h, ← BitVec.ofInt_add, pcomp]

theorem p2LowN_ofInt (h2 : 0 ≤ t2 ∧ t2 ≤ 53481) (hp : -58553 ≤ p ∧ p ≤ 39320) :
    p2LowN (BitVec.ofInt n t2) (BitVec.ofInt n p) = BitVec.ofInt n (p2Low t2 p) := by
  have h : Fits37 (3 * t2 * (p - 3500)) := .of_mem (p2Low_product_mem h2 hp) (by decide) (by decide)
  simp only [p2LowN, ofNat_eq_ofInt, Nat.cast_ofNat, ← BitVec.ofInt_mul, ← ofInt_sub]
  rw [sshiftRight_ofInt hn h, p2Low]

theorem p2HighN_ofInt (h2 : 0 ≤ t2 ∧ t2 ≤ 320) (hp : -58553 ≤ p ∧ p ≤ 39320) :
    p2HighN (BitVec.ofInt n t2) (BitVec.ofInt n p) = BitVec.ofInt n (p2High t2 p) := by
  have h : Fits37 (t2 * (p - 10000)) := .of_mem (p2High_product_mem h2 hp) (by decide) (by decide)
  simp only [p2HighN, ofNat_eq_ofInt, Nat.cast_ofNat, ← BitVec.ofInt_mul, ← ofInt_sub]
  rw [sshiftRight_ofInt hn h, p2High]

/-- The first-order pressure of the datapath is the pattern of the exact one (`43_pressure.md` R170 to R173). -/
theorem firstPresN_ofInt (d1 : Word) (c : Coeffs) (hdT : -69368 ≤ dT ∧ dT ≤ 12543) :
    pcompN (pressXN (pressSensN c.c1 c.c3 (BitVec.ofInt n dT)) (pressOffN c.c2 c.c4 (BitVec.ofInt n dT)) d1) =
      BitVec.ofInt n (firstPres (zext c.c1) (zext c.c2) (zext c.c3) (zext c.c4) d1.toInt dT) := by
  have hsens := pressSens_mem (zext_mem c.c1) (zext_mem c.c3) hdT
  have hoff := pressOff_mem (zext_mem c.c2) (zext_mem c.c4) hdT
  rw [pressSensN_ofInt hn c.c1 c.c3 hdT, pressOffN_ofInt hn c.c2 c.c4 hdT, pressXN_ofInt hn d1 hsens,
    pcompN_ofInt hn (pressX_mem hsens hoff (toInt_mem d1)), firstPres]

/-- The TEMP result of the datapath is the pattern of the exact one (`42_temperature.md` R147, R151). -/
theorem tempResultN_eq_ofInt (m : Mode) (d2 : Word) (c5 : BitVec 11) (c6 : BitVec 6) :
    tempResultN n m d2 c5 c6 =
      BitVec.ofInt n (tempResult m (zext c6) (firstTemp (deltaT d2.toInt (zext c5)) (zext c6))) := by
  have hdT := deltaT_registers_mem d2 c5
  have ht : -7455 ≤ firstTemp (deltaT d2.toInt (zext c5)) (zext c6) ∧
      firstTemp (deltaT d2.toInt (zext c5)) (zext c6) ≤ 1584 := firstTemp_mem hdT (zext_mem c6)
  simp only [tempResultN, tempResult, deltaTN_eq_ofInt, firstTempN_ofInt hn c6 hdT, bandOfN_ofInt hn ht]
  generalize firstTemp (deltaT d2.toInt (zext c5)) (zext c6) = t at ht ⊢
  cases m with
  | disabled => rfl
  | enabled =>
    cases hband : bandOf t with
    | inBand => rfl
    | low => simp only [t2LowN_ofInt hn c6 ⟨ht.1, bandOf_eq_low_iff.mp hband⟩, ofInt_sub]
    | high => simp only [t2HighN_ofInt hn c6 ⟨bandOf_eq_high_iff.mp hband, ht.2⟩, ofInt_sub]

/-- The PRES result of the datapath is the pattern of the exact one (`43_pressure.md` R176, R179). -/
theorem presResultN_eq_ofInt (m : Mode) (d1 d2 : Word) (c : Coeffs) :
    presResultN n m d1 d2 c =
      BitVec.ofInt n (presResult m (zext c.c6) (firstTemp (deltaT d2.toInt (zext c.c5)) (zext c.c6))
        (firstPres (zext c.c1) (zext c.c2) (zext c.c3) (zext c.c4) d1.toInt (deltaT d2.toInt (zext c.c5)))) := by
  have hdT := deltaT_registers_mem d2 c.c5
  have ht : -7455 ≤ firstTemp (deltaT d2.toInt (zext c.c5)) (zext c.c6) ∧
      firstTemp (deltaT d2.toInt (zext c.c5)) (zext c.c6) ≤ 1584 := firstTemp_mem hdT (zext_mem c.c6)
  have hp := firstPres_registers_mem d1 c hdT
  simp only [presResultN, presResult, deltaTN_eq_ofInt, firstTempN_ofInt hn c.c6 hdT, bandOfN_ofInt hn ht,
    firstPresN_ofInt hn d1 c hdT]
  generalize firstTemp (deltaT d2.toInt (zext c.c5)) (zext c.c6) = t at ht ⊢
  generalize firstPres (zext c.c1) (zext c.c2) (zext c.c3) (zext c.c4) d1.toInt (deltaT d2.toInt (zext c.c5)) = p
    at hp ⊢
  cases m with
  | disabled => rfl
  | enabled =>
    cases hband : bandOf t with
    | inBand => rfl
    | low =>
      have hlow : -7455 ≤ t ∧ t < 200 := ⟨ht.1, bandOf_eq_low_iff.mp hband⟩
      have ht2 : 0 ≤ t2Low (zext c.c6) t ∧ t2Low (zext c.c6) t ≤ 53481 := t2Low_mem (zext_mem c.c6) hlow
      simp only [t2LowN_ofInt hn c.c6 hlow, p2LowN_ofInt hn ht2 hp, ofInt_sub]
    | high =>
      have hhigh : 450 < t ∧ t ≤ 1584 := ⟨bandOf_eq_high_iff.mp hband, ht.2⟩
      have ht2 : 0 ≤ t2High (zext c.c6) t ∧ t2High (zext c.c6) t ≤ 320 := t2High_mem (zext_mem c.c6) hhigh
      simp only [t2HighN_ofInt hn c.c6 hhigh, p2HighN_ofInt hn ht2 hp, ofInt_sub]

end Operations

/-- Settles O52: the exact result fits 37 bits, and the datapath gives its pattern. -/
theorem thirtySevenBitsRealiseTheTemperatureExactly : Obligations.ThirtySevenBitsRealiseTheTemperatureExactly := by
  intro n m d2 c5 c6 hn
  have ht := firstTemp_mem (deltaT_registers_mem d2 c5) (zext_mem c6)
  rw [tempResultN_eq_ofInt hn]
  exact toInt_ofInt_of_fits37 hn (.of_mem (tempResult_mem m (zext_mem c6) ht) (by decide) (by decide))

/-- Settles O53: the exact result fits 37 bits, and the datapath gives its pattern. -/
theorem thirtySevenBitsRealiseThePressureExactly : Obligations.ThirtySevenBitsRealiseThePressureExactly := by
  intro n m d1 d2 c hn dT
  have hdT : -69368 ≤ dT ∧ dT ≤ 12543 := deltaT_registers_mem d2 c.c5
  have ht := firstTemp_mem hdT (zext_mem c.c6)
  rw [presResultN_eq_ofInt hn]
  exact toInt_ofInt_of_fits37 hn
    (.of_mem (presResult_mem m (zext_mem c.c6) ht (firstPres_registers_mem d1 c hdT)) (by decide) (by decide))

/-- Settles O54: each witness is a closed input, on which both sides compute. -/
theorem thirtyTwoBitsAreNotEnough : Obligations.ThirtyTwoBitsAreNotEnough := by
  unfold Obligations.ThirtyTwoBitsAreNotEnough
  decide

end Sys2Proof.Machine
end

section
/-! PROOF. The assembler: which lines it accepts, and the items of those as numbers. -/

namespace Sys2Proof

theorem immediateOk_eq_true_iff {x : Int} : immediateOk x = true ↔ -32768 ≤ x ∧ x ≤ 65535 := by
  simp [immediateOk]

theorem immediateOk_eq_false_iff {x : Int} : immediateOk x = false ↔ ¬(-32768 ≤ x ∧ x ≤ 65535) := by
  rw [← immediateOk_eq_true_iff, Bool.not_eq_true]

end Sys2Proof

namespace Sys2Proof.Machine

theorem assembleLine_of_not_wellFormed {l : AsmLine} (h : l.wellFormed = false) :
    assembleLine l = .error .outOfRange := by
  simp [assembleLine, h]

/-- An accepted register number is the address of the register it names (`30_encoding.md` R81). -/
theorem addr_regOf_number {n : Nat} (h : n ≤ 15) : (regOf (.number n)).addr.toNat = n := by
  rw [regOf, addr_ofAddr]
  exact Nat.mod_eq_of_lt (by omega)

theorem trunc16_toNat (x : Int) : (trunc16 x).toNat = (x % 0x10000).toNat := BitVec.toNat_ofInt x

/-- The item of a read as a number: WE = 0, the address, DATA = 0 (`30_encoding.md` R71). -/
theorem encodeItem_rd (r : Reg) : encodeItem (.rd r) = BitVec.ofNat 21 (r.addr.toNat * 0x10000) := by
  have hvalue : (encodeItem (.rd r)).toNat = r.addr.toNat * 0x10000 := by
    rw [encodeItem, encode, Encoded.item, busItem_toNat]
    simp
  rw [← hvalue, BitVec.ofNat_toNat, BitVec.setWidth_eq]

/-- The item of a write as a number: WE = 1, the address, the immediate modulo 2^16 (`30_encoding.md` R71, R81). -/
theorem encodeItem_wr (r : Reg) (x : Int) :
    encodeItem (.wr r (trunc16 x)) = BitVec.ofNat 21 (0x100000 + r.addr.toNat * 0x10000 + (x % 0x10000).toNat) := by
  have hvalue : (encodeItem (.wr r (trunc16 x))).toNat = 0x100000 + r.addr.toNat * 0x10000 + (x % 0x10000).toNat := by
    rw [encodeItem, encode, Encoded.item, busItem_toNat, trunc16_toNat]
    simp
  rw [← hvalue, BitVec.ofNat_toNat, BitVec.setWidth_eq]

@[simp] theorem decodeBus_encodeItem_rd (r : Reg) : decodeBus (encodeItem (.rd r)) = .rd r :=
  decodeBus_busItem_read r 0

@[simp] theorem decodeBus_encodeItem_wr (r : Reg) (v : Word) : decodeBus (encodeItem (.wr r v)) = .wr r v :=
  decodeBus_busItem_write r v

/-- A line expands to reads and writes only, and each of their items decodes back. -/
theorem map_decodeBus_encodeItem_expandLine (l : AsmLine) :
    ((expandLine l).map encodeItem).map decodeBus = expandLine l := by
  cases l with
  | temp m => simp [expandLine_temp]
  | pres m => simp [expandLine_pres]
  | mtemp m t => cases m <;> simp [expandLine]
  | mpres m p t => cases m <;> simp [expandLine]
  | _ => simp [expandLine]

/-! The items of each accepted line (`30_encoding.md` R81, R82). -/

section Lines

variable {r : RegOperand} {a b c d p t x : Int}

theorem assembleLine_rd (hr : r.wellFormed = true) : assembleLine (.rd r) = .ok [encodeItem (.rd (regOf r))] :=
  assembleLine_of_wellFormed hr

theorem assembleLine_wr (hr : r.wellFormed = true) (hx : immediateOk x = true) :
    assembleLine (.wr r x) = .ok [encodeItem (.wr (regOf r) (trunc16 x))] :=
  assembleLine_of_wellFormed (by simp [AsmLine.wellFormed, hr, hx])

theorem assembleLine_cal (ha : immediateOk a = true) (hb : immediateOk b = true) (hc : immediateOk c = true)
    (hd : immediateOk d = true) :
    assembleLine (.cal a b c d) =
      .ok [encodeItem (.wr .w0 (trunc16 a)), encodeItem (.wr .w1 (trunc16 b)), encodeItem (.wr .w2 (trunc16 c)),
        encodeItem (.wr .w3 (trunc16 d)), carrier (encodeCmd .loadcal)] :=
  assembleLine_of_wellFormed (by simp [AsmLine.wellFormed, ha, hb, hc, hd])

theorem assembleLine_mtemp (m : Mode) (ht : immediateOk t = true) :
    assembleLine (.mtemp m t) = .ok [encodeItem (.wr .d2 (trunc16 t)), carrier (encodeCmd (.temp m))] := by
  rw [assembleLine_of_wellFormed (l := .mtemp m t) ht, expandLine_mtemp, expandLine_temp]
  rfl

theorem assembleLine_mpres (m : Mode) (hp : immediateOk p = true) (ht : immediateOk t = true) :
    assembleLine (.mpres m p t) =
      .ok [encodeItem (.wr .d1 (trunc16 p)), encodeItem (.wr .d2 (trunc16 t)), carrier (encodeCmd (.pres m))] := by
  rw [assembleLine_of_wellFormed (by simp [AsmLine.wellFormed, hp, ht]), expandLine_mpres, expandLine_pres]
  rfl

end Lines

/-- Settles O60: an accepted line is its expansion item by item, and an operand out of range refuses the line. -/
theorem assembledItemsDecodeToTheirInstructions : Obligations.AssembledItemsDecodeToTheirInstructions := by
  unfold Obligations.AssembledItemsDecodeToTheirInstructions
  intro inRange rdItem wrItem command
  have hin {x : Int} (h : inRange x) : immediateOk x = true := immediateOk_eq_true_iff.mpr h
  have hout {x : Int} (h : ¬inRange x) : immediateOk x = false := immediateOk_eq_false_iff.mpr h
  have hnumber {n : Nat} (h : n ≤ 15) : (RegOperand.number n).wellFormed = true := decide_eq_true h
  have hrd (r : Reg) : encodeItem (.rd r) = rdItem r.addr.toNat := encodeItem_rd r
  have hwr (r : Reg) (x : Int) : encodeItem (.wr r (trunc16 x)) = wrItem r.addr.toNat x := encodeItem_wr r x
  have htemp (m : Mode) : carrier (encodeCmd (.temp m)) = command 2 m := by cases m <;> rfl
  have hpres (m : Mode) : carrier (encodeCmd (.pres m)) = command 3 m := by cases m <;> rfl
  refine ⟨fun r => ?rdName, fun n => ?rdNumber, fun r x hx => ?wrName, fun n x hn hx => ?wrNumber,
    fun n x hn => ?wrBadNumber, fun r x hx => ?wrBadImmediate, fun a b c d ha hb hc hd => ?cal,
    fun a b c d h => ?calBad, fun m t ht => ?mtemp, fun m t ht => ?mtempBad, fun m p t hp ht => ?mpres,
    fun m p t h => ?mpresBad, assembleLine_of_wellFormed rfl,
    fun l => ⟨assembleLine_of_not_wellFormed,
      fun h => ⟨_, assembleLine_of_wellFormed h, map_decodeBus_encodeItem_expandLine l⟩⟩⟩
  case rdName => rw [assembleLine_rd rfl, regOf, hrd]
  case rdNumber =>
    split_ifs with hn
    · rw [assembleLine_rd (hnumber hn), hrd, addr_regOf_number hn]
    · exact assembleLine_of_not_wellFormed (decide_eq_false hn)
  case wrName => rw [assembleLine_wr rfl (hin hx), regOf, hwr]
  case wrNumber => rw [assembleLine_wr (hnumber hn) (hin hx), hwr, addr_regOf_number hn]
  case wrBadNumber =>
    exact assembleLine_of_not_wellFormed (by simp [AsmLine.wellFormed, RegOperand.wellFormed, hn])
  case wrBadImmediate => exact assembleLine_of_not_wellFormed (by simp [AsmLine.wellFormed, hout hx])
  case cal =>
    rw [assembleLine_cal (hin ha) (hin hb) (hin hc) (hin hd), hwr, hwr, hwr, hwr]
    rfl
  case calBad =>
    rcases h with h | h | h | h <;> exact assembleLine_of_not_wellFormed (by simp [AsmLine.wellFormed, hout h])
  case mtemp =>
    rw [assembleLine_mtemp m (hin ht), hwr, htemp]
    rfl
  case mtempBad => exact assembleLine_of_not_wellFormed (hout ht)
  case mpres =>
    rw [assembleLine_mpres m (hin hp) (hin ht), hwr, hwr, hpres]
    rfl
  case mpresBad =>
    rcases h with h | h <;> exact assembleLine_of_not_wellFormed (by simp [AsmLine.wellFormed, hout h])

end Sys2Proof.Machine
end
